-- ==== Sys2Proof/Word.lean ====
section
/-! DEFINITION. The words of the serial packet decoder: the byte the input port carries (spec/00_scope.md R9, "input byte
width 8 bits"). Nothing else of the block is a general word: its registers have widths of their own
(Sys2Proof/Machine/State.lean). -/

namespace Sys2Proof

/-- One byte of the stream, 0 to 255 (R9, R42). -/
abbrev Byte := BitVec 8

end Sys2Proof
end

