-- ==== Sys2Proof/Config.lean ====
section
/-! DEFINITION. What the spec leaves to the implementation: the type of a timestamp (OPEN, spec/92_eei_decisions.md D3) and
the value of `packet_start_time` after reset (spec/70_reset_and_hazards.md R161: "unspecified; any `Time`"). -/

namespace Sys2Proof

/-- The parameter of the model: which codes stand for timestamps. It has no body, so nothing can be proved of it and a
statement about the model holds for every choice (spec/00_scope.md R9, "`OPEN: Time`"; spec/93_implementation_defined.md
I10, "parameter"; notes/assumptions/1.md). -/
opaque Config.isTime : Nat → Bool

/-- The type `Time` of R9 and R58, left OPEN by the spec (D3). It is the type the parameter `Config.isTime` describes: one
value for each code in it and one for the code 0, so any type with at least one value whose values can be numbered. It has
equality, which State needs as plain data, and no order and no arithmetic: the block only copies times (R58), as
`Obligations.TimesAreOnlyCopied` says. -/
structure Config.Time where
  /-- the code that tells two times apart; no rule of the block reads it -/
  code : Nat
  /-- the code is one of the implementation's -/
  isTime : code = 0 ∨ Config.isTime code = true
  deriving DecidableEq, Repr

/-- `packet_start_time` after reset. The spec gives none (R161). DESIGN CHOICE (notes/assumptions/2.md, unsafe): the time
with the code 0. -/
def Config.resetTime : Config.Time := { code := 0, isTime := .inl rfl }

end Sys2Proof
end

