-- ==== Sys2Proof/Syntax.lean ====
section
/-! DEFINITION. The block's instructions: the 14 command codes of spec/opcode_table.json, one constructor a row
(spec/30_encoding.md R67, R68; spec/42_command.md R107 to R120), and the Command variants they decode to. -/

namespace Sys2Proof

/-- One row of the opcode table. The 13 named commands have one code each; `unknown` is the fallback row, which stands for
every code that no other row matches (R69, R120) and so keeps the code it was read from. -/
inductive Instr where
  /-- 0x01, R107 -/
  | ping
  /-- 0x02, R112 -/
  | read
  /-- 0x03, R113 -/
  | write
  /-- 0x04, R114 -/
  | regWrite
  /-- 0x05, R111 -/
  | action
  /-- 0x06, R108 -/
  | factoryReset
  /-- 0x08, R109 -/
  | reboot
  /-- 0x10, R110 -/
  | clear
  /-- 0x55, R119 -/
  | status
  /-- 0x82, R115 -/
  | syncRead
  /-- 0x83, R116 -/
  | syncWrite
  /-- 0x92, R117 -/
  | bulkRead
  /-- 0x93, R118 -/
  | bulkWrite
  /-- any other code, R120 -/
  | unknown (code : Byte)
  deriving DecidableEq, Repr

/-- The Command type of R67: the contents of `current_command` and the variant a Command element reports. -/
inductive Command where
  | unknown | ping | read | write | regWrite | action | factoryReset | reboot | clear | status
  | syncRead | syncWrite | bulkRead | bulkWrite
  deriving DecidableEq, Repr

/-- The four payload layouts of R65, selected by the command. -/
inductive PayloadClass where
  /-- class C: no payload, the checksum follows the command -/
  | noPayload
  /-- class R: a RAM address, then values -/
  | ramAddress
  /-- class S: an error code, then values -/
  | statusError
  /-- class U: values only -/
  | unknown
  deriving DecidableEq, Repr

end Sys2Proof
end

