-- ==== Sys2Proof/WellFormed.lean ====
section
/-! DEFINITION. Which terms of `Instr` are instructions: the fallback row matches only when no row above it matches
(spec/opcode_table.json, row Unknown; spec/30_encoding.md R69), so `unknown` may not hold a named code. Every other
constructor has no operand and is always well formed. -/

namespace Sys2Proof

/-- The 13 codes of R68 that name a command. -/
def namedCodes : List Byte :=
  [0x01#8, 0x02#8, 0x03#8, 0x04#8, 0x05#8, 0x06#8, 0x08#8, 0x10#8, 0x55#8, 0x82#8, 0x83#8, 0x92#8, 0x93#8]

/-- The one check on an instruction: the code kept by `unknown` is none of the named codes (R69). -/
def Instr.wellFormed : Instr → Bool
  | .unknown code => !namedCodes.contains code
  | .ping => true
  | .read => true
  | .write => true
  | .regWrite => true
  | .action => true
  | .factoryReset => true
  | .reboot => true
  | .clear => true
  | .status => true
  | .syncRead => true
  | .syncWrite => true
  | .bulkRead => true
  | .bulkWrite => true

end Sys2Proof
end

