-- ==== Sys2Proof/Decode.lean ====
section
/-! DEFINITION. The decoder and the encoder of the command byte (spec/30_encoding.md R68 to R71; spec/opcode_table.json).
An instruction is one byte; every byte value is an instruction (R69), so the decoder rejects only an empty input. -/

namespace Sys2Proof

/-- Why no instruction was read. There is no illegal code (R69), so there is one reason only. -/
inductive DecodeReject where
  /-- the input holds no byte -/
  | noByte
  deriving DecidableEq, Repr

/-- What the decoder answers: an instruction with the bytes after it, or a rejection by name. -/
inductive DecodeResult where
  | instr (i : Instr) (rest : List Byte)
  | rejected (why : DecodeReject)
  deriving DecidableEq, Repr

/-- The 13 exact-match rows of R68: each is compared with all 8 bits of the byte (mask 0xFF, R71). -/
def namedRows : List (Byte × Instr) :=
  [(0x01#8, .ping), (0x02#8, .read), (0x03#8, .write), (0x04#8, .regWrite), (0x05#8, .action),
   (0x06#8, .factoryReset), (0x08#8, .reboot), (0x10#8, .clear), (0x55#8, .status),
   (0x82#8, .syncRead), (0x83#8, .syncWrite), (0x92#8, .bulkRead), (0x93#8, .bulkWrite)]

/-- The instruction a command byte stands for: its named row, else the fallback row Unknown (R68, R69). -/
def decodeByte (c : Byte) : Instr :=
  match namedRows.find? (fun row => row.1 == c) with
  | some row => row.2
  | none => .unknown c

/-- The decoder over the stored bytes: it takes one byte and leaves the rest. -/
def decode : List Byte → DecodeResult
  | [] => .rejected .noByte
  | c :: rest => .instr (decodeByte c) rest

/-- The code of an instruction, from the table's `match` column. -/
def Instr.code : Instr → Byte
  | .ping => 0x01#8
  | .read => 0x02#8
  | .write => 0x03#8
  | .regWrite => 0x04#8
  | .action => 0x05#8
  | .factoryReset => 0x06#8
  | .reboot => 0x08#8
  | .clear => 0x10#8
  | .status => 0x55#8
  | .syncRead => 0x82#8
  | .syncWrite => 0x83#8
  | .bulkRead => 0x92#8
  | .bulkWrite => 0x93#8
  | .unknown code => code

/-- The bytes of an instruction: its code. -/
def encode (i : Instr) : List Byte := [i.code]

/-- The Command variant of an instruction (R67): the variant named as its row is. -/
def Instr.command : Instr → Command
  | .ping => .ping
  | .read => .read
  | .write => .write
  | .regWrite => .regWrite
  | .action => .action
  | .factoryReset => .factoryReset
  | .reboot => .reboot
  | .clear => .clear
  | .status => .status
  | .syncRead => .syncRead
  | .syncWrite => .syncWrite
  | .bulkRead => .bulkRead
  | .bulkWrite => .bulkWrite
  | .unknown _ => .unknown

/-- `decode_command(c)` of R68: the Command variant of a command byte. -/
def decodeCommand (c : Byte) : Command := (decodeByte c).command

/-- The byte in which a row's bits stand when the table numbers them (bit 0 the least significant): the bits at or above
`nbits` are 0. The instruction is bits 7 to 0; the table's "fields" at bits 8 to 13 are no bits of it
(notes/assumptions/9.md). -/
def tableByte (nbits w : Nat) : Byte := BitVec.ofNat 8 (w % 2 ^ nbits)

/-- The instruction the decoder reads from a word of the opcode table. -/
def decodeTableWord (nbits w : Nat) : Option Instr :=
  match decode [tableByte nbits w] with
  | .instr i _ => some i
  | .rejected _ => none

end Sys2Proof
end

