-- ==== Sys2Proof/Machine/State.lean ====
section
/-! DEFINITION. The state of the block as plain data: the nine registers of spec/10_state.md R14, the two ports of
spec/20_memory.md R42 and R43 as they stand in the current cycle, and two fields of the model's own (`resetSeen`,
`pending`). The block has no memory, no register file, no flags and no control register (R27 to R29, R51). -/

namespace Sys2Proof.Machine

/-- PacketState, R15: the block's program counter (R17). -/
inductive PacketState where
  /-- idle scanning and header matching -/
  | header
  /-- expects the 1-byte address -/
  | address
  /-- expects the 2-byte declared length -/
  | length
  /-- expects the 1-byte command code -/
  | command
  /-- expects a 2-byte RAM address -/
  | ramAddress
  /-- expects a 1-byte error code -/
  | errorCode
  /-- expects value chunks of 1 or 2 bytes -/
  | value
  /-- expects the 2-byte checksum -/
  | checksum
  deriving DecidableEq, Repr

/-- The nine element kinds of R73. R72's record carries `cmd`, "meaningful only when `kind = Command`"; here the variant
stands in the Command kind itself. -/
inductive Kind where
  | header | address | length
  | command (cmd : Command)
  | ramAddress | errorCode | value | checksum | frameError
  deriving DecidableEq, Repr

/-- The payload of an element, R72: nothing, an integer 0 to 65535, or two bytes. -/
inductive Payload where
  | empty
  | int (n : BitVec 16)
  | bytes (b0 b1 : Byte)
  deriving DecidableEq, Repr

/-- DecodedElement, R72: what one step may report. -/
structure Element where
  kind : Kind
  tStart : Config.Time
  tEnd : Config.Time
  payload : Payload
  deriving DecidableEq, Repr

/-- The signals of the input port in one cycle, R42. -/
structure Cycle where
  /-- `rst` -/
  rst : Bool
  /-- `in_valid` -/
  valid : Bool
  /-- `in_byte` -/
  byte : Byte
  /-- `in_t_start` -/
  tStart : Config.Time
  /-- `in_t_end` -/
  tEnd : Config.Time
  deriving DecidableEq, Repr

/-- A cycle with no byte and no reset (R44); its other signals carry nothing. -/
def Cycle.idle : Cycle :=
  { rst := false, valid := false, byte := 0#8, tStart := Config.resetTime, tEnd := Config.resetTime }

/-- A cycle that presents a byte: `in_valid = 1` and `rst = 0`, the cycles that are steps of the block (R41, R44). -/
def Cycle.isByte (c : Cycle) : Bool := c.valid && !c.rst

/-- The whole state. -/
structure State where
  /-- R15, R17: the packet state, the block's program counter -/
  state : PacketState
  /-- R18: the bytes of the field being assembled, 0 to 4 of them, oldest first -/
  accBytes : List Byte
  /-- R19: how many bytes the current field has collected -/
  accCount : BitVec 3
  /-- R20: how many header bytes have matched so far -/
  headerMatchIndex : BitVec 3
  /-- R21: the little-endian value of the last completed field -/
  fieldValue : BitVec 32
  /-- R22: the LENGTH field of the current packet; 0 means none -/
  declaredLength : BitVec 16
  /-- R23: the bytes counted since the COMMAND field began -/
  consumedLength : BitVec 17
  /-- R25: the variant of the last COMMAND byte -/
  currentCommand : Command
  /-- R26: the start time of the field being reported -/
  packetStartTime : Config.Time
  /-- the output port of the current cycle, R43 in the record form of R72: `none` is `out_valid = 0` -/
  out : Option Element
  /-- the input port of the current cycle, R42 -/
  inp : Cycle
  /-- the MODEL's own: a reset has happened since power-on (R163) -/
  resetSeen : Bool
  /-- the MODEL's own: the cycles the byte source is still to present, the next one first (R49) -/
  pending : List Cycle
  deriving DecidableEq, Repr

/-- What stops the machine. The block itself has no fatal error (R148: its two error conditions are FrameErrors, which are
next states). A fault is raised only in a state that R14, R20 and R32 exclude and no run from reset reaches, where the
spec's pseudocode would index past the end of a sequence; `Obligations.ByteStepsComplete` says the invariant rules both
out. -/
inductive Fault where
  /-- raised by the HEADER rule (R94) when `header_match_index` is 4 to 7, so that `HDR[header_match_index]` names no byte;
  safe: the model stops -/
  | headerIndexOutOfRange
  /-- raised by the CHECKSUM rule (R134) when the field completes with fewer than two bytes held, so that `acc_bytes[1]`
  names no byte; safe: the model stops -/
  | checksumBytesMissing
  deriving DecidableEq, Repr

/-- Why a step has no meaning. -/
inductive Refusal where
  /-- an arm of `exec` that has no meaning yet; no arm answers it; safe: the model stops -/
  | notModelled (mnemonic : String)
  /-- raised by a byte presented before the first reset, as R163 asks: "must treat any step before it as having no meaning
  (refused)"; safe: the model stops -/
  | beforeFirstReset
  deriving DecidableEq, Repr

/-- The block right after reset, R14 and R161, with nothing presented yet. `packetStartTime` has no reset value in the
spec (notes/assumptions/2.md); the ports and the model's own fields are named in notes/assumptions/3.md. -/
def State.reset : State :=
  { state := .header
    accBytes := []
    accCount := 0#3
    headerMatchIndex := 0#3
    fieldValue := 0#32
    declaredLength := 0#16
    consumedLength := 0#17
    currentCommand := .unknown
    packetStartTime := Config.resetTime
    out := none
    inp := Cycle.idle
    resetSeen := true
    pending := [] }

end Sys2Proof.Machine
end

