-- ==== Sys2Proof/Machine/Operands.lean ====
section
/-! DEFINITION. The operand forms of the block: the header pattern, the little-endian assembly of a field, the chunk size
of VALUE, the command table's class and next-state columns, and the numeric codes the output port carries. -/

namespace Sys2Proof.Machine

/-- `HDR`, R61. -/
def headerPattern : List Byte := [0xFF#8, 0xFF#8, 0xFD#8, 0x00#8]

/-- `HDR[header_match_index]`, R94; there is none past index 3. -/
def headerByte? (index : BitVec 3) : Option Byte := headerPattern[index.toNat]?

/-- `LE(s)`, R11 and R63: the first byte is the least significant. -/
def littleEndian : List Byte → Nat
  | [] => 0
  | b :: rest => b.toNat + 256 * littleEndian rest

/-- `field_value[15:0]`: the 16 bits an element reports. -/
def State.field16 (s : State) : BitVec 16 := s.fieldValue.setWidth 16

/-- `remaining_bytes_before_checksum`, R129: an integer that may be negative. -/
def State.remaining (s : State) : Int := (s.declaredLength.toNat : Int) - (s.consumedLength.toNat : Int) - 2

/-- The chunk size of VALUE, R130. -/
def State.chunkSize (s : State) : Int := min 2 s.remaining

/-- The class column of R68. -/
def payloadClass : Command → PayloadClass
  | .ping => .noPayload
  | .factoryReset => .noPayload
  | .reboot => .noPayload
  | .clear => .noPayload
  | .read => .ramAddress
  | .write => .ramAddress
  | .regWrite => .ramAddress
  | .action => .ramAddress
  | .syncRead => .ramAddress
  | .syncWrite => .ramAddress
  | .bulkRead => .ramAddress
  | .bulkWrite => .ramAddress
  | .status => .statusError
  | .unknown => .unknown

/-- The state in which a class's payload begins, R70. -/
def classEntry : PayloadClass → PacketState
  | .noPayload => .checksum
  | .ramAddress => .ramAddress
  | .statusError => .errorCode
  | .unknown => .value

/-- `next_after_command(cmd)`, R70. -/
def nextAfterCommand (cmd : Command) : PacketState := classEntry (payloadClass cmd)

/-- The code of a PacketState, R15. -/
def PacketState.code : PacketState → BitVec 3
  | .header => 0#3
  | .address => 1#3
  | .length => 2#3
  | .command => 3#3
  | .ramAddress => 4#3
  | .errorCode => 5#3
  | .value => 6#3
  | .checksum => 7#3

/-- `out_cmd` of a Command variant, R67. -/
def outCmd : Command → BitVec 4
  | .unknown => 0#4
  | .ping => 1#4
  | .read => 2#4
  | .write => 3#4
  | .regWrite => 4#4
  | .action => 5#4
  | .factoryReset => 6#4
  | .reboot => 7#4
  | .clear => 8#4
  | .status => 9#4
  | .syncRead => 10#4
  | .syncWrite => 11#4
  | .bulkRead => 12#4
  | .bulkWrite => 13#4

/-- `out_kind` of an element kind, R73. -/
def outKind : Kind → BitVec 4
  | .header => 0#4
  | .address => 1#4
  | .length => 2#4
  | .command _ => 3#4
  | .ramAddress => 4#4
  | .errorCode => 5#4
  | .value => 6#4
  | .checksum => 7#4
  | .frameError => 8#4

end Sys2Proof.Machine
end

