-- ==== Sys2Proof/Machine/Flags.lean ====
section
/-! DEFINITION. The conditions the rules test. The block has no status flags (spec/10_state.md R29); what looks like one is
a test on the length registers, computed on exact integers (spec/00_scope.md R11, D4). -/

namespace Sys2Proof.Machine

/-- The condition of the overrun guard, R93. -/
def State.overrun (s : State) : Bool :=
  s.declaredLength != 0#16 && decide (s.declaredLength.toNat ≤ s.consumedLength.toNat)

/-- The forced error condition left by a broken partial header, R30. -/
def State.forcedError (s : State) : Bool :=
  s.state == .header && s.declaredLength == 1#16 && s.consumedLength == 1#17 && s.headerMatchIndex != 0#3

/-- ERROR_CODE's test, R128: exactly 2 bytes remain before the declared packet end. -/
def State.onlyChecksumRemains (s : State) : Bool :=
  decide ((s.declaredLength.toNat : Int) - (s.consumedLength.toNat : Int) = 2)

/-- VALUE's exit test, R131: the consumed count is exactly `declared_length - 2`. -/
def State.valueExit (s : State) : Bool :=
  decide ((s.consumedLength.toNat : Int) = (s.declaredLength.toNat : Int) - 2)

/-- The completion test of a field, R83: "reached" is "at least", so a required count of 0 or less is reached by the first
byte. -/
def fieldComplete (count : Nat) (required : Int) : Bool := decide (required ≤ (count : Int))

end Sys2Proof.Machine
end

