-- ==== Sys2Proof/Machine/Ops.lean ====
section
/-! DEFINITION. The named operations over the registers: the field accumulator (spec/40_accumulator.md R81), taking the
FrameError exception (spec/41_framing.md R93, spec/60_exceptions.md R147), arming it (R96), reset
(spec/70_reset_and_hazards.md R161), and the element a step emits. There is no operation that returns from an error: after
a FrameError the block is in HEADER and goes on with the next byte (R148). -/

namespace Sys2Proof.Machine

/-- `state <- S`. -/
def State.goto (p : PacketState) (s : State) : State := { s with state := p }

/-- `emit(K, ts, te, p)`, R11: the step's single element. -/
def State.emit (k : Kind) (ts te : Config.Time) (p : Payload) (s : State) : State :=
  { s with out := some { kind := k, tStart := ts, tEnd := te, payload := p } }

/-- Emit the element of an accumulated field: it starts with the field's first byte and ends with the current byte, R74. -/
def State.emitField (k : Kind) (p : Payload) (s : State) : State :=
  s.emit k s.packetStartTime s.inp.tEnd p

/-- Write the two length registers. -/
def State.setLengths (declared : BitVec 16) (consumed : BitVec 17) (s : State) : State :=
  { s with declaredLength := declared, consumedLength := consumed }

/-- Write `header_match_index`. -/
def State.setMatchIndex (index : BitVec 3) (s : State) : State := { s with headerMatchIndex := index }

/-- Write `current_command`. -/
def State.setCommand (cmd : Command) (s : State) : State := { s with currentCommand := cmd }

/-- The first byte of a field clears the stale bytes and records the start time, R81 and R86. -/
def State.beginField (ts : Config.Time) (s : State) : State :=
  if s.accCount = 0#3 then { s with accBytes := [], packetStartTime := ts } else s

/-- Append a byte to `acc_bytes`, R81. -/
def State.appendByte (b : Byte) (s : State) : State := { s with accBytes := s.accBytes ++ [b] }

/-- A field of `count` bytes is complete, R81 and R84: it is counted if a length is declared, its little-endian value is
exposed, and the count returns to 0. -/
def State.completeField (count : Nat) (s : State) : State :=
  { s with
    consumedLength := if s.declaredLength = 0#16 then s.consumedLength else s.consumedLength + BitVec.ofNat 17 count
    fieldValue := BitVec.ofNat 32 (littleEndian s.accBytes)
    accCount := 0#3 }

/-- A field is still incomplete after `count` bytes, R81. -/
def State.holdField (count : Nat) (s : State) : State := { s with accCount := BitVec.ofNat 3 count }

/-- `accumulate(b, ts, n)`, R81: whether the field is complete, and the state after. -/
def accumulate (b : Byte) (ts : Config.Time) (n : Int) (s : State) : Bool × State :=
  let count := s.accCount.toNat + 1
  let held := (s.beginField ts).appendByte b
  if fieldComplete count n then (true, held.completeField count) else (false, held.holdField count)

/-- Accumulate the byte on the input port. -/
def State.accumulateByte (n : Int) (s : State) : Bool × State := accumulate s.inp.byte s.inp.tStart n s

/-- TAKING THE ERROR, R93 and R147: the overrun guard discards the packet, goes to HEADER and reports a FrameError that
spans the current byte. Nothing is saved: `field_value`, `current_command` and `packet_start_time` are unchanged. -/
def State.overrunGuard (s : State) : State :=
  { s with
    state := .header
    declaredLength := 0#16
    consumedLength := 0#17
    headerMatchIndex := 0#3
    accCount := 0#3
    accBytes := []
    out := some { kind := .frameError, tStart := s.inp.tStart, tEnd := s.inp.tEnd, payload := .empty } }

/-- Arm the forced error condition, R96 (header resync failure, E1 of R141): the guard takes the error on the next byte. -/
def State.forceError (s : State) : State := s.setLengths 1#16 1#17

/-- Reset, R161: every register takes its reset value and no element is produced; a byte presented in the same cycle is
ignored. -/
def State.resetBlock (s : State) : State := { State.reset with inp := s.inp, pending := s.pending }

/-- The next cycle reaches the input port and the output port is cleared (R45: an element is never held). When the byte
source has nothing more to present, the cycle is idle (R34, R44, R166). -/
def State.takeCycle (s : State) : State :=
  match s.pending with
  | [] => { s with inp := { s.inp with rst := false, valid := false }, out := none }
  | c :: rest => { s with inp := c, pending := rest, out := none }

end Sys2Proof.Machine
end

