-- ==== Sys2Proof/Machine/CommandCodes.lean ====
section
/-! DEFINITION. The COMMAND rule and the meaning of every row of spec/opcode_table.json (spec/42_command.md R106 to R120).
An instruction is the byte taken in state COMMAND; its times are those on the input port. -/

namespace Sys2Proof.Machine

/-- The COMMAND step that every code shares, R106: the byte is accumulated as a 1-byte field, the variant is recorded, the
layout of the rest of the packet is selected, and the Command element carries the byte. -/
def commandStep (code : Byte) (cmd : Command) (s : State) : State :=
  (((accumulate code s.inp.tStart 1 s).2.setCommand cmd).goto (nextAfterCommand cmd)).emitField (.command cmd)
    (.int (code.setWidth 16))

/-- Ping, R107: to CHECKSUM. -/
def execPing (s : State) : Host.Outcome State Fault Refusal := .next (commandStep 0x01#8 .ping s)

/-- FactoryReset, R108: to CHECKSUM. -/
def execFactoryReset (s : State) : Host.Outcome State Fault Refusal := .next (commandStep 0x06#8 .factoryReset s)

/-- Reboot, R109: to CHECKSUM. -/
def execReboot (s : State) : Host.Outcome State Fault Refusal := .next (commandStep 0x08#8 .reboot s)

/-- Clear, R110: to CHECKSUM. -/
def execClear (s : State) : Host.Outcome State Fault Refusal := .next (commandStep 0x10#8 .clear s)

/-- Action, R111: to RAM_ADDRESS. -/
def execAction (s : State) : Host.Outcome State Fault Refusal := .next (commandStep 0x05#8 .action s)

/-- Read, R112: to RAM_ADDRESS. -/
def execRead (s : State) : Host.Outcome State Fault Refusal := .next (commandStep 0x02#8 .read s)

/-- Write, R113: to RAM_ADDRESS. -/
def execWrite (s : State) : Host.Outcome State Fault Refusal := .next (commandStep 0x03#8 .write s)

/-- RegWrite, R114: to RAM_ADDRESS. -/
def execRegWrite (s : State) : Host.Outcome State Fault Refusal := .next (commandStep 0x04#8 .regWrite s)

/-- SyncRead, R115: to RAM_ADDRESS. -/
def execSyncRead (s : State) : Host.Outcome State Fault Refusal := .next (commandStep 0x82#8 .syncRead s)

/-- SyncWrite, R116: to RAM_ADDRESS. -/
def execSyncWrite (s : State) : Host.Outcome State Fault Refusal := .next (commandStep 0x83#8 .syncWrite s)

/-- BulkRead, R117: to RAM_ADDRESS. -/
def execBulkRead (s : State) : Host.Outcome State Fault Refusal := .next (commandStep 0x92#8 .bulkRead s)

/-- BulkWrite, R118: to RAM_ADDRESS. -/
def execBulkWrite (s : State) : Host.Outcome State Fault Refusal := .next (commandStep 0x93#8 .bulkWrite s)

/-- Status, R119: to ERROR_CODE. -/
def execStatus (s : State) : Host.Outcome State Fault Refusal := .next (commandStep 0x55#8 .status s)

/-- Unknown, R120: to VALUE; the element keeps the code. -/
def execUnknown (code : Byte) (s : State) : Host.Outcome State Fault Refusal := .next (commandStep code .unknown s)

end Sys2Proof.Machine
end

