-- ==== Sys2Proof/Machine/Dispatch.lean ====
section
/-! DEFINITION. `exec`: one arm per row of the opcode table, each one call of the row's meaning. -/

namespace Sys2Proof.Machine

def exec (i : Instr) (s : State) : Host.Outcome State Fault Refusal :=
  match i with
  | .ping => Sys2Proof.Machine.execPing s
  | .read => Sys2Proof.Machine.execRead s
  | .write => Sys2Proof.Machine.execWrite s
  | .regWrite => Sys2Proof.Machine.execRegWrite s
  | .action => Sys2Proof.Machine.execAction s
  | .factoryReset => Sys2Proof.Machine.execFactoryReset s
  | .reboot => Sys2Proof.Machine.execReboot s
  | .clear => Sys2Proof.Machine.execClear s
  | .status => Sys2Proof.Machine.execStatus s
  | .syncRead => Sys2Proof.Machine.execSyncRead s
  | .syncWrite => Sys2Proof.Machine.execSyncWrite s
  | .bulkRead => Sys2Proof.Machine.execBulkRead s
  | .bulkWrite => Sys2Proof.Machine.execBulkWrite s
  | .unknown code => Sys2Proof.Machine.execUnknown code s

end Sys2Proof.Machine
end

