-- ==== Sys2Proof/Machine/Framing.lean ====
section
/-! DEFINITION. The state rules HEADER, ADDRESS and LENGTH (spec/41_framing.md R94 to R99). Each reads the current byte and
its times from the input port. -/

namespace Sys2Proof.Machine

/-- HEADER, matching byte: R95. -/
def headerMatch (s : State) : State :=
  match (s.setMatchIndex (s.headerMatchIndex + 1#3)).accumulateByte 4 with
  | (true, t) => ((t.setMatchIndex 0#3).goto .address).emitField .header .empty
  | (false, t) => t

/-- HEADER: R94, with its three cases R95 (match), R96 (a partial match breaks) and R97 (idle scanning). -/
def headerStep (s : State) : Host.Outcome State Fault Refusal :=
  match headerByte? s.headerMatchIndex with
  | none => .fault .headerIndexOutOfRange
  | some h =>
    if s.inp.byte = h then .next (headerMatch s)
    else if s.headerMatchIndex = 0#3 then .next s
    else .next s.forceError

/-- ADDRESS: R98. The byte is reported at once and is not accumulated. -/
def addressStep (s : State) : State :=
  (s.goto .length).emit .address s.inp.tStart s.inp.tEnd (.int (s.inp.byte.setWidth 16))

/-- LENGTH: R99. -/
def lengthStep (s : State) : State :=
  match s.accumulateByte 2 with
  | (true, t) => ((t.setLengths t.field16 0#17).goto .command).emitField .length (.int t.field16)
  | (false, t) => t

end Sys2Proof.Machine
end

