-- ==== Sys2Proof/Machine/PayloadFields.lean ====
section
/-! DEFINITION. The state rules after COMMAND: RAM_ADDRESS, ERROR_CODE, VALUE and CHECKSUM (spec/43_payload.md R126 to
R134). -/

namespace Sys2Proof.Machine

/-- RAM_ADDRESS: R126. -/
def ramAddressStep (s : State) : State :=
  match s.accumulateByte 2 with
  | (true, t) => (t.goto .value).emitField .ramAddress (.int t.field16)
  | (false, t) => t

/-- ERROR_CODE: R127 and R128. The remaining bytes are counted after this one. -/
def errorCodeStep (s : State) : State :=
  let t := (s.accumulateByte 1).2
  (t.goto (if t.onlyChecksumRemains then .checksum else .value)).emitField .errorCode
    (.int (s.inp.byte.setWidth 16))

/-- VALUE: R129 to R131. The exit test is made only when a chunk completes. -/
def valueStep (s : State) : State :=
  match s.accumulateByte s.chunkSize with
  | (true, t) => (t.goto (if t.valueExit then .checksum else t.state)).emitField .value (.int t.field16)
  | (false, t) => t

/-- CHECKSUM: R133 and R134. The payload is the two wire bytes reversed, and the packet closes. -/
def checksumStep (s : State) : Host.Outcome State Fault Refusal :=
  match s.accumulateByte 2 with
  | (true, t) =>
    match t.accBytes with
    | c0 :: c1 :: _ => .next (((t.setLengths 0#16 0#17).goto .header).emitField .checksum (.bytes c1 c0))
    | _ => .fault .checksumBytesMissing
  | (false, t) => .next t

end Sys2Proof.Machine
end

