-- ==== Sys2Proof/Machine/Feed.lean ====
section
/-! DEFINITION. One byte (`feed`, spec/41_framing.md R92) and one cycle of the ports (spec/20_memory.md R41 to R44,
spec/60_exceptions.md R146, spec/70_reset_and_hazards.md R161 to R163). -/

namespace Sys2Proof.Machine

/-- The state rule of the current state, R92. In COMMAND the byte on the port is decoded and its instruction executed. -/
def stateRule (s : State) : Host.Outcome State Fault Refusal :=
  match s.state with
  | .header => headerStep s
  | .address => .next (addressStep s)
  | .length => .next (lengthStep s)
  | .command => exec (decodeByte s.inp.byte) s
  | .ramAddress => .next (ramAddressStep s)
  | .errorCode => .next (errorCodeStep s)
  | .value => .next (valueStep s)
  | .checksum => checksumStep s

/-- `feed`, R92: the overrun guard is checked before any state logic; if it fires, no state rule runs. -/
def feed (s : State) : Host.Outcome State Fault Refusal :=
  if s.overrun then .next s.overrunGuard else stateRule s

/-- What the block does with the cycle on its input port: reset has priority over the byte (R146, R161), a byte is fed
(R41) unless no reset has happened yet (R163), and a cycle with neither changes nothing (R44). -/
def runCycle (s : State) : Host.Outcome State Fault Refusal :=
  if s.inp.rst then .next s.resetBlock
  else if s.inp.valid then
    if s.resetSeen then feed s else .refused .beforeFirstReset
  else .next s

/-- The block placed where it fetches a command byte, with that byte next on the input port: in COMMAND, where R31 and R32
have `consumed_length = 0` and `acc_count = 0`, after a reset (R163). -/
def State.placeCommand (b : Byte) (s : State) : State :=
  { s with
    state := .command
    consumedLength := 0#17
    accCount := 0#3
    resetSeen := true
    pending := { Cycle.idle with valid := true, byte := b } :: s.pending }

end Sys2Proof.Machine
end

