-- ==== Sys2Proof/Machine/Step.lean ====
section
/-! DEFINITION. One step: the next cycle reaches the input port and the block acts on it. -/

namespace Sys2Proof.Machine

/-- One cycle of the block. -/
def step (s : State) : Host.Outcome State Fault Refusal := runCycle s.takeCycle

/-- `s` with an instruction of the opcode table where the next step fetches (notes/assumptions/4.md). -/
def State.withFetchWord (s : State) (nbits w : Nat) : State := s.placeCommand (tableByte nbits w)

end Sys2Proof.Machine
end

