-- ==== Sys2Proof/Machine/Ports.lean ====
section
/-! DEFINITION. The signals of the output port (spec/20_memory.md R43) as the element record of the current cycle gives
them. -/

namespace Sys2Proof.Machine

/-- The output signals of a cycle with `out_valid = 1`, R43. -/
structure OutSignals where
  /-- `out_kind` -/
  kind : BitVec 4
  /-- `out_cmd` -/
  cmd : BitVec 4
  /-- `out_t_start` -/
  tStart : Config.Time
  /-- `out_t_end` -/
  tEnd : Config.Time
  /-- `out_ptag` -/
  ptag : BitVec 2
  /-- `out_int` -/
  int : BitVec 16
  /-- `out_b0` -/
  b0 : Byte
  /-- `out_b1` -/
  b1 : Byte
  deriving DecidableEq, Repr

/-- `out_cmd`: the variant's code when the kind is Command, 0 otherwise (R43). -/
def kindCmd : Kind → BitVec 4
  | .command cmd => outCmd cmd
  | .header => 0#4
  | .address => 0#4
  | .length => 0#4
  | .ramAddress => 0#4
  | .errorCode => 0#4
  | .value => 0#4
  | .checksum => 0#4
  | .frameError => 0#4

/-- `out_ptag`: 0 None, 1 Int, 2 Bytes (R43). -/
def Payload.tag : Payload → BitVec 2
  | .empty => 0#2
  | .int _ => 1#2
  | .bytes _ _ => 2#2

/-- `out_int`: 0 unless the payload is an integer (R43). -/
def Payload.outInt : Payload → BitVec 16
  | .int n => n
  | .empty => 0#16
  | .bytes _ _ => 0#16

/-- `out_b0`: 0 unless the payload is bytes (R43). -/
def Payload.outB0 : Payload → Byte
  | .bytes b0 _ => b0
  | .empty => 0#8
  | .int _ => 0#8

/-- `out_b1`: 0 unless the payload is bytes (R43). -/
def Payload.outB1 : Payload → Byte
  | .bytes _ b1 => b1
  | .empty => 0#8
  | .int _ => 0#8

/-- The signals an element drives, R43. -/
def Element.signals (e : Element) : OutSignals :=
  { kind := outKind e.kind, cmd := kindCmd e.kind, tStart := e.tStart, tEnd := e.tEnd
    ptag := e.payload.tag, int := e.payload.outInt, b0 := e.payload.outB0, b1 := e.payload.outB1 }

/-- The output port of the current cycle: `none` is `out_valid = 0`, where the other signals carry nothing (R43, R44). -/
def State.outPort (s : State) : Option OutSignals := s.out.map Element.signals

end Sys2Proof.Machine
end

