-- ==== Sys2Proof/Safety.lean ====
section
/-! DEFINITION. The terms the statements use: the invariant of the states a run from reset reaches, the elements a run of
steps reports, the elements a packet should give, and two relations between states. -/

namespace Sys2Proof.Machine

/-! ## The invariant -/

/-- What holds between steps (spec/10_state.md R14, R18 to R20, R22 to R24, R31, R32). The last four fields are sharper than
the rules' own words and follow from the state rules. -/
structure State.Inv (s : State) : Prop where
  /-- R14, R19: 0 to 3 -/
  count_le : s.accCount.toNat ≤ 3
  /-- R14, R20: 0 to 3 -/
  index_le : s.headerMatchIndex.toNat ≤ 3
  /-- R18: at most 4 bytes -/
  bytes_le : s.accBytes.length ≤ 4
  /-- R18, R19: a field in progress holds the bytes it has collected -/
  field_bytes : s.accCount ≠ 0#3 → s.accBytes.length = s.accCount.toNat
  /-- R19: outside HEADER at most 1 -/
  count_outside : s.state ≠ .header → s.accCount.toNat ≤ 1
  /-- R32 -/
  header_count : s.state = .header → s.accCount = s.headerMatchIndex
  /-- R32 -/
  count_zero : s.state = .address ∨ s.state = .command ∨ s.state = .errorCode → s.accCount = 0#3
  /-- R31: HEADER has no length, except in the forced error condition of R30 -/
  header_lengths : s.state = .header →
    s.declaredLength = 0#16 ∧ s.consumedLength = 0#17 ∨
    s.declaredLength = 1#16 ∧ s.consumedLength = 1#17 ∧ s.headerMatchIndex ≠ 0#3
  /-- R31 -/
  early_lengths : s.state = .address ∨ s.state = .length → s.declaredLength = 0#16 ∧ s.consumedLength = 0#17
  /-- R31 -/
  command_consumed : s.state = .command → s.consumedLength = 0#17
  /-- R24: when no length is declared nothing is counted -/
  zero_length : s.declaredLength = 0#16 → s.consumedLength = 0#17
  /-- R24: the bound that makes 17 bits suffice -/
  consumed_le : s.declaredLength ≠ 0#16 → s.consumedLength.toNat ≤ s.declaredLength.toNat + 1
  /-- R20, R134: outside HEADER no partial header is held -/
  index_zero : s.state ≠ .header → s.headerMatchIndex = 0#3
  /-- R61, R95: a partial header holds the first bytes of the pattern -/
  header_bytes : s.state = .header → s.accCount ≠ 0#3 → s.accBytes = headerPattern.take s.accCount.toNat
  /-- R106: the command byte alone has been counted -/
  after_command : s.state = .ramAddress ∨ s.state = .errorCode →
    s.consumedLength = if s.declaredLength = 0#16 then 0#17 else 1#17
  /-- R82, R130: the first byte of a 2-byte chunk is held only where two value bytes and the checksum are left -/
  value_partial : s.state = .value → s.accCount ≠ 0#3 → s.consumedLength.toNat + 4 ≤ s.declaredLength.toNat

/-- No packet and no field is in progress: the registers that R149 names stand as after reset. -/
structure State.AtPacketStart (s : State) : Prop where
  state : s.state = .header
  declaredLength : s.declaredLength = 0#16
  consumedLength : s.consumedLength = 0#17
  headerMatchIndex : s.headerMatchIndex = 0#3
  accCount : s.accCount = 0#3

/-! ## Runs -/

/-- The elements reported by `k` steps, oldest first, and the state after them; `none` if a step stops. -/
def collect : Nat → State → Option (List Element × State)
  | 0, s => some ([], s)
  | k + 1, s =>
    match step s with
    | .next t => (collect k t).map fun r => (t.out.toList ++ r.1, r.2)
    | .fault _ => none
    | .refused _ => none

/-- The state with this stream still to come. -/
def State.withStream (cs : List Cycle) (s : State) : State := { s with pending := cs }

/-- The registers of a state, with the ports cleared. -/
def State.registers (s : State) : State := { s with inp := Cycle.idle, out := none }

/-- The elements of a whole stream and the registers after it; `none` if a step stops. -/
def runStream (cs : List Cycle) (s : State) : Option (List Element × State) :=
  (collect cs.length (s.withStream cs)).map fun r => (r.1, r.2.registers)

/-- The state as the rules of a byte step see it: the cycle is on the input port and the output port is clear. -/
def State.receive (c : Cycle) (rest : List Cycle) (s : State) : State :=
  { s with inp := c, pending := rest, out := none }

/-- The accumulator fed with a list of bytes and their start times, all with the required count `n`: what each call
answers, and the state after. -/
def accumulateAll (n : Int) : List (Byte × Config.Time) → State → List Bool × State
  | [], s => ([], s)
  | x :: xs, s =>
    let r := accumulate x.1 x.2 n s
    let q := accumulateAll n xs r.2
    (r.1 :: q.1, q.2)

/-- The state after a command byte that starts a field of its own (R106): written out field by field, everything not named
unchanged. -/
def commandResult (code : Byte) (cmd : Command) (next : PacketState) (s : State) : State :=
  { s with
    state := next
    accBytes := [code]
    packetStartTime := s.inp.tStart
    fieldValue := code.setWidth 32
    consumedLength := if s.declaredLength = 0#16 then s.consumedLength else s.consumedLength + 1#17
    currentCommand := cmd
    out := some { kind := .command cmd, tStart := s.inp.tStart, tEnd := s.inp.tEnd, payload := .int (code.setWidth 16) } }

/-- The state after the overrun guard (R93): written out field by field, everything not named unchanged. -/
def frameErrorResult (s : State) : State :=
  { s with
    state := .header
    declaredLength := 0#16
    consumedLength := 0#17
    headerMatchIndex := 0#3
    accCount := 0#3
    accBytes := []
    out := some { kind := .frameError, tStart := s.inp.tStart, tEnd := s.inp.tEnd, payload := .empty } }

/-- A byte of a 2-byte field has been taken and the other is still to come (R81): the field in progress holds it. -/
def firstOfTwo (s : State) : State :=
  { s with accBytes := [s.inp.byte], accCount := 1#3, packetStartTime := s.inp.tStart }

/-- `consumed_length` after a completed field of `n` bytes, R84. -/
def State.counted (n : Nat) (s : State) : BitVec 17 :=
  if s.declaredLength = 0#16 then s.consumedLength else s.consumedLength + BitVec.ofNat 17 n

/-- The byte source's next cycle presents the byte of `c`, the block has been reset, and the guard does not fire: the
premises under which a state rule runs (R41, R92). -/
structure State.TakesByte (c : Cycle) (rest : List Cycle) (s : State) : Prop where
  next : s.pending = c :: rest
  byte : c.isByte = true
  reset : s.resetSeen = true
  running : s.declaredLength = 0#16 ∨ s.consumedLength.toNat < s.declaredLength.toNat

/-- The same premises with the guard's condition (R93). -/
structure State.Overruns (c : Cycle) (rest : List Cycle) (s : State) : Prop where
  next : s.pending = c :: rest
  byte : c.isByte = true
  reset : s.resetSeen = true
  declared : s.declaredLength ≠ 0#16
  reached : s.declaredLength.toNat ≤ s.consumedLength.toNat

/-! ## The elements of a stream -/

/-- The element of a field whose first byte came in cycle `first` and whose last in cycle `last`, R74. -/
def spanElement (k : Kind) (p : Payload) (first last : Cycle) : Element :=
  { kind := k, tStart := first.tStart, tEnd := last.tEnd, payload := p }

/-- The integer of a 1-byte field. -/
def int1 (c : Cycle) : Payload := .int (c.byte.setWidth 16)

/-- The integer of a 2-byte field: the byte received first is the low one, R47. -/
def int2 (c0 c1 : Cycle) : Payload := .int (c1.byte ++ c0.byte)

/-- Value elements in chunks of two bytes, with a last chunk of one byte if the count is odd, R132 case 1. -/
def valueChunks : List Cycle → List Element
  | c0 :: c1 :: rest => spanElement .value (int2 c0 c1) c0 c1 :: valueChunks rest
  | [c] => [spanElement .value (int1 c) c c]
  | [] => []

/-- One 1-byte Value element for each byte, R132 cases 2 and 3. -/
def valueBytes (cs : List Cycle) : List Element := cs.map fun c => spanElement .value (int1 c) c c

/-- The elements of the payload of a packet, R65. -/
def payloadElements : PayloadClass → List Cycle → List Element
  | .ramAddress, c0 :: c1 :: rest => spanElement .ramAddress (int2 c0 c1) c0 c1 :: valueChunks rest
  | .statusError, c :: rest => spanElement .errorCode (int1 c) c c :: valueChunks rest
  | .unknown, cs => valueChunks cs
  | .noPayload, _ => []
  | .ramAddress, _ => []
  | .statusError, [] => []

/-- The payload lengths with which a packet of each class closes normally, R65. Class C has no payload: the two bytes after
the command are its checksum, whatever length is declared. -/
def payloadFits : PayloadClass → Nat → Bool
  | .noPayload, n => n == 0
  | .ramAddress, n => 3 ≤ n
  | .statusError, n => 1 ≤ n
  | .unknown, n => 1 ≤ n

/-- A packet as the block takes it, one cycle for each byte, R64. -/
structure Packet where
  h0 : Cycle
  h1 : Cycle
  h2 : Cycle
  h3 : Cycle
  addr : Cycle
  len0 : Cycle
  len1 : Cycle
  cmd : Cycle
  payload : List Cycle
  crc0 : Cycle
  crc1 : Cycle
  deriving DecidableEq, Repr

/-- The cycles in arrival order. -/
def Packet.cycles (p : Packet) : List Cycle :=
  [p.h0, p.h1, p.h2, p.h3, p.addr, p.len0, p.len1, p.cmd] ++ p.payload ++ [p.crc0, p.crc1]

/-- The layout class of its command byte. -/
def Packet.layout (p : Packet) : PayloadClass := payloadClass (decodeCommand p.cmd.byte)

/-- The declared length of a packet, R64. -/
def Packet.declared (p : Packet) : BitVec 16 := p.len1.byte ++ p.len0.byte

/-- A packet that R65 says closes normally: every cycle is a byte, the header is `FF FF FD 00`, and the length and the payload
are those of the command's class. For classes R, S and U the length counts from COMMAND through CHECKSUM; for class C it is
any length but 1, and the packet ends with the two bytes after the command. -/
structure Packet.ClosesNormally (p : Packet) : Prop where
  bytes : ∀ c ∈ p.cycles, c.isByte = true
  header : [p.h0.byte, p.h1.byte, p.h2.byte, p.h3.byte] = headerPattern
  length : if p.layout = .noPayload then p.declared ≠ 1#16 else p.declared.toNat = p.payload.length + 3
  fits : payloadFits p.layout p.payload.length = true

/-- The elements such a packet gives, in order (R52, R91). -/
def Packet.elements (p : Packet) : List Element :=
  [spanElement .header .empty p.h0 p.h3,
   spanElement .address (int1 p.addr) p.addr p.addr,
   spanElement .length (int2 p.len0 p.len1) p.len0 p.len1,
   spanElement (.command (decodeCommand p.cmd.byte)) (int1 p.cmd) p.cmd p.cmd] ++
  payloadElements p.layout p.payload ++
  [spanElement .checksum (.bytes p.crc1.byte p.crc0.byte) p.crc0 p.crc1]

/-! ## Relations between states -/

/-- The zero-length lock-up of R170 at a chunk boundary: in VALUE with no declared length and no byte held. -/
structure State.Locked (s : State) : Prop where
  state : s.state = .value
  declaredLength : s.declaredLength = 0#16
  accCount : s.accCount = 0#3

/-- Two states that differ at most in what no rule reads before writing it (R149): `field_value`, `current_command`, the
ports, and, when no field is in progress, `acc_bytes` and `packet_start_time`. -/
structure State.SameToLaterSteps (s t : State) : Prop where
  state : s.state = t.state
  accCount : s.accCount = t.accCount
  headerMatchIndex : s.headerMatchIndex = t.headerMatchIndex
  declaredLength : s.declaredLength = t.declaredLength
  consumedLength : s.consumedLength = t.consumedLength
  resetSeen : s.resetSeen = t.resetSeen
  pending : s.pending = t.pending
  accBytes : s.accCount ≠ 0#3 → s.accBytes = t.accBytes
  packetStartTime : s.accCount ≠ 0#3 → s.packetStartTime = t.packetStartTime

/-- A cycle with its times renamed. -/
def Cycle.mapTimes (f : Config.Time → Config.Time) (c : Cycle) : Cycle :=
  { c with tStart := f c.tStart, tEnd := f c.tEnd }

/-- An element with its times renamed. -/
def Element.mapTimes (f : Config.Time → Config.Time) (e : Element) : Element :=
  { e with tStart := f e.tStart, tEnd := f e.tEnd }

/-- A state with every timestamp in it renamed. -/
def State.mapTimes (f : Config.Time → Config.Time) (s : State) : State :=
  { s with
    packetStartTime := f s.packetStartTime
    out := s.out.map (Element.mapTimes f)
    inp := s.inp.mapTimes f
    pending := s.pending.map (Cycle.mapTimes f) }

/-- An outcome with its next state renamed. -/
def mapNext (g : State → State) : Host.Outcome State Fault Refusal → Host.Outcome State Fault Refusal
  | .next s => .next (g s)
  | .fault r => .fault r
  | .refused r => .refused r

end Sys2Proof.Machine
end

