-- ==== Sys2Proof/Certificates/Slice0/Obligations.lean ====
section
/-! DEFINITION. The statements for the provers, in the order of OBLIGATIONS.json. Each says which rule of spec/ it
formalises; a rule that the spec marks "[derived ...]" is the spec's own inference, and the statement about it says so. -/

open Sys2Proof Sys2Proof.Machine

/-! ## Encoding -/

/-- Decoding an encoded well-formed instruction gives it back, with the bytes after it (30_encoding.md section 2). -/
def Obligations.DecodeEncodeAgree : Prop :=
  ∀ (i : Instr) (rest : List Byte), i.wellFormed = true → decode (encode i ++ rest) = .instr i rest

/-- Every byte is exactly one instruction: it decodes to a well-formed one whose code it is (R69: no code is illegal). -/
def Obligations.EveryByteIsAnInstruction : Prop :=
  ∀ (b : Byte) (rest : List Byte),
    ∃ i : Instr, decode (b :: rest) = .instr i rest ∧ i.wellFormed = true ∧ encode i = [b] ∧
      ∀ j : Instr, j.wellFormed = true → encode j = [b] → j = i

/-- R68 with its class and next-state columns, and R70: the 13 named codes row by row, and every other byte. -/
def Obligations.CommandTable : Prop :=
  (∀ row ∈ ([(0x01#8, .ping, .noPayload, .checksum), (0x02#8, .read, .ramAddress, .ramAddress),
      (0x03#8, .write, .ramAddress, .ramAddress), (0x04#8, .regWrite, .ramAddress, .ramAddress),
      (0x05#8, .action, .ramAddress, .ramAddress), (0x06#8, .factoryReset, .noPayload, .checksum),
      (0x08#8, .reboot, .noPayload, .checksum), (0x10#8, .clear, .noPayload, .checksum),
      (0x55#8, .status, .statusError, .errorCode), (0x82#8, .syncRead, .ramAddress, .ramAddress),
      (0x83#8, .syncWrite, .ramAddress, .ramAddress), (0x92#8, .bulkRead, .ramAddress, .ramAddress),
      (0x93#8, .bulkWrite, .ramAddress, .ramAddress)] : List (Byte × Command × PayloadClass × PacketState)),
    decodeCommand row.1 = row.2.1 ∧ payloadClass row.2.1 = row.2.2.1 ∧ nextAfterCommand row.2.1 = row.2.2.2) ∧
  (∀ c : Byte, c ∉ ([0x01#8, 0x02#8, 0x03#8, 0x04#8, 0x05#8, 0x06#8, 0x08#8, 0x10#8, 0x55#8, 0x82#8, 0x83#8,
      0x92#8, 0x93#8] : List Byte) →
    decodeCommand c = .unknown) ∧
  payloadClass .unknown = .unknown ∧ nextAfterCommand .unknown = .value

/-- R67: the 14 variants and their `out_cmd` codes. -/
def Obligations.CommandVariantCodes : Prop :=
  (∀ cmd : Command, cmd ∈ ([.unknown, .ping, .read, .write, .regWrite, .action, .factoryReset, .reboot, .clear, .status,
    .syncRead, .syncWrite, .bulkRead, .bulkWrite] : List Command)) ∧
  outCmd .unknown = 0#4 ∧ outCmd .ping = 1#4 ∧ outCmd .read = 2#4 ∧ outCmd .write = 3#4 ∧ outCmd .regWrite = 4#4 ∧
  outCmd .action = 5#4 ∧ outCmd .factoryReset = 6#4 ∧ outCmd .reboot = 7#4 ∧ outCmd .clear = 8#4 ∧ outCmd .status = 9#4 ∧
  outCmd .syncRead = 10#4 ∧ outCmd .syncWrite = 11#4 ∧ outCmd .bulkRead = 12#4 ∧ outCmd .bulkWrite = 13#4

/-- A few command bytes, bit by bit from the spec's encodings, decode to the instructions they stand for. -/
def Obligations.SampleBytesDecode : Prop :=
  decode [0b00000001#8] = .instr .ping [] ∧ decode [0b01010101#8] = .instr .status [] ∧
  decode [0b10000011#8] = .instr .syncWrite [] ∧ decode [0b10010010#8] = .instr .bulkRead [] ∧
  decode [0b00000111#8] = .instr (.unknown 0b00000111#8) [] ∧ decode [] = .rejected .noByte

/-- R43: the element record and the port signals carry the same information: the signals determine the record, and each
signal has the value R43's table gives it, 0 where the table says "0 otherwise", with the `out_kind` codes of R73. -/
def Obligations.SignalsCarryTheElement : Prop :=
  (∀ e e' : Element, e.signals = e'.signals → e = e') ∧
  (outKind .header = 0#4 ∧ outKind .address = 1#4 ∧ outKind .length = 2#4 ∧
    (∀ cmd : Command, outKind (.command cmd) = 3#4) ∧ outKind .ramAddress = 4#4 ∧ outKind .errorCode = 5#4 ∧
    outKind .value = 6#4 ∧ outKind .checksum = 7#4 ∧ outKind .frameError = 8#4) ∧
  (∀ e : Element,
    e.signals.kind = outKind e.kind ∧ e.signals.tStart = e.tStart ∧ e.signals.tEnd = e.tEnd ∧
    (∀ cmd : Command, e.kind = .command cmd → e.signals.cmd = outCmd cmd) ∧
    ((∀ cmd : Command, e.kind ≠ .command cmd) → e.signals.cmd = 0#4) ∧
    (e.payload = .empty →
      e.signals.ptag = 0#2 ∧ e.signals.int = 0#16 ∧ e.signals.b0 = 0#8 ∧ e.signals.b1 = 0#8) ∧
    (∀ n : BitVec 16, e.payload = .int n →
      e.signals.ptag = 1#2 ∧ e.signals.int = n ∧ e.signals.b0 = 0#8 ∧ e.signals.b1 = 0#8) ∧
    (∀ b0 b1 : Byte, e.payload = .bytes b0 b1 →
      e.signals.ptag = 2#2 ∧ e.signals.int = 0#16 ∧ e.signals.b0 = b0 ∧ e.signals.b1 = b1)) ∧
  (∀ s : State, (s.out = none → s.outPort = none) ∧ ∀ e : Element, s.out = some e → s.outPort = some e.signals)

/-! ## The accumulator -/

/-- R81, with every register the pseudocode writes and every other one unchanged. -/
def Obligations.AccumulatePseudocode : Prop :=
  ∀ (b : Byte) (ts : Config.Time) (n : Int) (s : State),
    let count := s.accCount.toNat + 1
    let bytes := (if s.accCount = 0#3 then [] else s.accBytes) ++ [b]
    let start := if s.accCount = 0#3 then ts else s.packetStartTime
    accumulate b ts n s =
      if n ≤ (count : Int) then
        (true, { s with
          accBytes := bytes
          packetStartTime := start
          consumedLength := if s.declaredLength ≠ 0#16 then s.consumedLength + BitVec.ofNat 17 count else s.consumedLength
          fieldValue := BitVec.ofNat 32 (littleEndian bytes)
          accCount := 0#3 })
      else
        (false, { s with accBytes := bytes, packetStartTime := start, accCount := BitVec.ofNat 3 count })

/-- R83: a field completes on the first byte at which `acc_count >= n`; a required count of 0 or less gives a 1-byte
field. -/
def Obligations.FieldCompletionTest : Prop :=
  ∀ (b : Byte) (ts : Config.Time) (n : Int) (s : State),
    ((accumulate b ts n s).1 = true ↔ n ≤ (s.accCount.toNat : Int) + 1) ∧
    ((s.accCount.toNat : Int) < n → ((accumulate b ts n s).1 = true ↔ n = (s.accCount.toNat : Int) + 1)) ∧
    (n ≤ 0 → s.accCount = 0#3 → (accumulate b ts n s).1 = true ∧ (accumulate b ts n s).2.accBytes = [b])

/-- A field of 1 to 4 bytes: every call but the last answers false; the last exposes the little-endian value (R63), the raw
bytes (R85), the start time of the first byte (R86), and counts the bytes if a length is declared (R84). The sum is written
out, and it fits the 32 bits. R84 to R86 are partly the spec's own inferences. -/
def Obligations.FieldAssembly : Prop :=
  ∀ (s : State) (x : Byte × Config.Time) (xs : List (Byte × Config.Time)),
    s.accCount = 0#3 → xs.length ≤ 3 →
    let byte (k : Nat) : Nat := (((x :: xs).map Prod.fst)[k]?.getD 0).toNat
    ∃ v : BitVec 32,
      v.toNat = byte 0 + 256 * byte 1 + 65536 * byte 2 + 16777216 * byte 3 ∧
      accumulateAll (xs.length + 1) (x :: xs) s =
        (List.replicate xs.length false ++ [true],
          { s with
            accBytes := (x :: xs).map Prod.fst
            packetStartTime := x.2
            fieldValue := v
            consumedLength := s.counted (xs.length + 1)
            accCount := 0#3 })

/-! ## The step and the error -/

/-- R146: reset first, then the overrun guard, then the state rule of the current state; and R92's dispatch. A byte before
the first reset and a cycle with neither reset nor byte are the two other cases (R163, R44). Two of the branches are the
model's reading: an idle cycle before the first reset changes nothing (notes/assumptions/8.md), and the byte decoded in
COMMAND is the one on the port, which is R106's `field_value[7:0]` where no byte is held (notes/assumptions/7.md). -/
def Obligations.StepPriority : Prop :=
  ∀ (s : State) (c : Cycle) (rest : List Cycle), s.pending = c :: rest →
    let r := s.receive c rest
    step s =
      if c.rst = true then .next r.resetBlock
      else if c.valid = false then .next r
      else if s.resetSeen = false then .refused .beforeFirstReset
      else if s.declaredLength ≠ 0#16 ∧ s.declaredLength.toNat ≤ s.consumedLength.toNat then .next r.overrunGuard
      else match s.state with
        | .header => headerStep r
        | .address => .next (addressStep r)
        | .length => .next (lengthStep r)
        | .command => exec (decodeByte c.byte) r
        | .ramAddress => .next (ramAddressStep r)
        | .errorCode => .next (errorCodeStep r)
        | .value => .next (valueStep r)
        | .checksum => checksumStep r

/-- A step in COMMAND runs the instruction its byte decodes to, at the state with that byte's cycle on the input port and
the output port clear. That the byte decoded is the one on the port, also in a COMMAND state with a byte held, which R32
excludes, is the model's reading of R106 (notes/assumptions/7.md). -/
def Obligations.StepRunsDecodedInstruction : Prop :=
  ∀ (s : State) (c : Cycle) (rest : List Cycle) (i : Instr),
    s.TakesByte c rest → s.state = .command → decode [c.byte] = .instr i [] →
    step s = exec i (s.receive c rest)

/-- R93: the guard's condition, in whatever state and for whatever byte, gives exactly this state; where the condition does
not hold, the step is the state rule's. -/
def Obligations.OverrunGuardTakesTheError : Prop :=
  (∀ (s : State) (c : Cycle) (rest : List Cycle), s.Overruns c rest →
    step s = .next (frameErrorResult (s.receive c rest))) ∧
  (∀ (s : State) (c : Cycle) (rest : List Cycle), s.TakesByte c rest → step s = stateRule (s.receive c rest))

/-- FrameError comes from the guard alone (R141, R142): a step reports one exactly when it takes a byte with the guard's
condition, and the element is then the span of that byte with no payload, whatever armed the guard. -/
def Obligations.OnlyTheGuardReportsFrameError : Prop :=
  ∀ (s t : State) (c : Cycle) (rest : List Cycle), s.pending = c :: rest → step s = .next t →
    ((∃ e, t.out = some e ∧ e.kind = .frameError) ↔ s.Overruns c rest) ∧
    (∀ e, t.out = some e → e.kind = .frameError → e = spanElement .frameError .empty c c)

/-- Which lengths arm the guard does not show (D6, I6): any two pairs that meet its condition give the same step. -/
def Obligations.ForcedLengthsDoNotShow : Prop :=
  ∀ (s : State) (c : Cycle) (rest : List Cycle) (d : BitVec 16) (n : BitVec 17),
    s.Overruns c rest → (s.setLengths d n).Overruns c rest → step (s.setLengths d n) = step s

/-! ## HEADER, ADDRESS, LENGTH -/

/-- R95: a matching byte at index 0 to 2, and the fourth one. -/
def Obligations.HeaderMatchingByte : Prop :=
  ∀ (s : State) (c : Cycle) (rest : List Cycle), s.Inv → s.TakesByte c rest → s.state = .header →
    headerPattern[s.headerMatchIndex.toNat]? = some c.byte →
    (s.headerMatchIndex.toNat < 3 → step s = .next { s.receive c rest with
      headerMatchIndex := s.headerMatchIndex + 1#3
      accCount := s.accCount + 1#3
      accBytes := headerPattern.take (s.headerMatchIndex.toNat + 1)
      packetStartTime := if s.headerMatchIndex = 0#3 then c.tStart else s.packetStartTime }) ∧
    (s.headerMatchIndex = 3#3 → step s = .next { s.receive c rest with
      state := .address
      headerMatchIndex := 0#3
      accCount := 0#3
      accBytes := [0xFF#8, 0xFF#8, 0xFD#8, 0x00#8]
      fieldValue := 0x00FDFFFF#32
      out := some { kind := .header, tStart := s.packetStartTime, tEnd := c.tEnd, payload := .empty } })

/-- R96: a byte that breaks a partial match arms the forced error condition and reports nothing; the byte after it, whatever
it is, draws the FrameError, and header scanning starts afresh. The exact lengths 1 and 1 of the armed state are decision D6
and are read from R96 (notes/assumptions/10.md); I6 allows any pair that arms the guard, and
`Obligations.ForcedLengthsDoNotShow` says that the pair does not show. -/
def Obligations.HeaderBrokenMatch : Prop :=
  ∀ (s : State) (c : Cycle) (rest : List Cycle), s.Inv → s.TakesByte c rest → s.state = .header →
    s.headerMatchIndex ≠ 0#3 → headerPattern[s.headerMatchIndex.toNat]? ≠ some c.byte →
    let t : State := { s.receive c rest with declaredLength := 1#16, consumedLength := 1#17 }
    step s = .next t ∧
    ∀ (d : Cycle) (rest' : List Cycle), rest = d :: rest' → d.isByte = true →
      step t = .next (frameErrorResult (t.receive d rest')) ∧ (frameErrorResult (t.receive d rest')).AtPacketStart

/-- R97: idle scanning changes nothing and reports nothing. -/
def Obligations.HeaderIdleScanning : Prop :=
  ∀ (s : State) (c : Cycle) (rest : List Cycle), s.TakesByte c rest → s.state = .header →
    s.headerMatchIndex = 0#3 → c.byte ≠ 0xFF#8 → step s = .next (s.receive c rest)

/-- R98: the guard cannot fire on the address byte; it is reported at once with its own span, whatever its value; only the
packet state changes. -/
def Obligations.AddressByte : Prop :=
  ∀ (s : State) (c : Cycle) (rest : List Cycle), s.Inv → s.pending = c :: rest → c.isByte = true → s.resetSeen = true →
    s.state = .address →
    step s = .next { s.receive c rest with
      state := .length
      out := some { kind := .address, tStart := c.tStart, tEnd := c.tEnd, payload := .int (c.byte.setWidth 16) } }

/-- R99, the two bytes of LENGTH: the first is held, the second sets `declared_length`, low byte first, and clears
`consumed_length`. -/
def Obligations.LengthField : Prop :=
  ∀ (s : State) (c0 c1 : Cycle) (rest : List Cycle), s.Inv → s.TakesByte c0 (c1 :: rest) → c1.isByte = true →
    s.state = .length → s.accCount = 0#3 →
    let t := firstOfTwo (s.receive c0 (c1 :: rest))
    step s = .next t ∧
    step t = .next { t.receive c1 rest with
      state := .command
      accBytes := [c0.byte, c1.byte]
      accCount := 0#3
      fieldValue := (c1.byte ++ c0.byte : BitVec 16).setWidth 32
      declaredLength := c1.byte ++ c0.byte
      consumedLength := 0#17
      out := some { kind := .length, tStart := c0.tStart, tEnd := c1.tEnd, payload := .int (c1.byte ++ c0.byte) } }

/-! ## COMMAND -/

/-- R106: the step of every command byte. The guard cannot fire on it, it is counted as 1 when a length is declared, and
every byte value is a command. -/
def Obligations.CommandByte : Prop :=
  ∀ (s : State) (c : Cycle) (rest : List Cycle), s.Inv → s.pending = c :: rest → c.isByte = true →
    s.resetSeen = true → s.state = .command →
    step s = .next { s.receive c rest with
      state := nextAfterCommand (decodeCommand c.byte)
      accBytes := [c.byte]
      packetStartTime := c.tStart
      fieldValue := c.byte.setWidth 32
      consumedLength := if s.declaredLength = 0#16 then 0#17 else 1#17
      currentCommand := decodeCommand c.byte
      out := some
        { kind := .command (decodeCommand c.byte), tStart := c.tStart, tEnd := c.tEnd
          payload := .int (c.byte.setWidth 16) } }

/-- R107 to R110, class C: each instruction completes with exactly this state; then, with a declared length of 1, the next
byte draws a FrameError, and with any other length the next two bytes are the checksum and close the packet. That a
parameter byte is therefore taken as checksum and what follows is scanned in HEADER is the spec's own inference (R108). -/
def Obligations.ClassCCommands : Prop :=
  (∀ s : State, s.accCount = 0#3 →
    exec .ping s = .next (commandResult 0x01#8 .ping .checksum s) ∧
    exec .factoryReset s = .next (commandResult 0x06#8 .factoryReset .checksum s) ∧
    exec .reboot s = .next (commandResult 0x08#8 .reboot .checksum s) ∧
    exec .clear s = .next (commandResult 0x10#8 .clear .checksum s)) ∧
  (∀ (s t : State) (c : Cycle) (rest : List Cycle), s.Inv → s.TakesByte c rest → s.state = .command →
    c.byte ∈ ([0x01#8, 0x06#8, 0x08#8, 0x10#8] : List Byte) → step s = .next t →
    (s.declaredLength = 1#16 → ∀ (d : Cycle) (r : List Cycle), rest = d :: r → d.isByte = true →
      step t = .next (frameErrorResult (t.receive d r))) ∧
    (s.declaredLength ≠ 1#16 → ∀ (x0 x1 : Cycle) (r : List Cycle), rest = x0 :: x1 :: r → x0.isByte = true →
      x1.isByte = true → ∃ u v : State,
        step t = .next u ∧ u.out = none ∧ step u = .next v ∧
        v.out = some (spanElement .checksum (.bytes x1.byte x0.byte) x0 x1) ∧ v.AtPacketStart ∧ v.pending = r))

/-- R111 to R118, class R, the instructions themselves: each completes with exactly this state. -/
def Obligations.ClassRCommands : Prop :=
  ∀ s : State, s.accCount = 0#3 →
    exec .read s = .next (commandResult 0x02#8 .read .ramAddress s) ∧
    exec .write s = .next (commandResult 0x03#8 .write .ramAddress s) ∧
    exec .regWrite s = .next (commandResult 0x04#8 .regWrite .ramAddress s) ∧
    exec .action s = .next (commandResult 0x05#8 .action .ramAddress s) ∧
    exec .syncRead s = .next (commandResult 0x82#8 .syncRead .ramAddress s) ∧
    exec .syncWrite s = .next (commandResult 0x83#8 .syncWrite .ramAddress s) ∧
    exec .bulkRead s = .next (commandResult 0x92#8 .bulkRead .ramAddress s) ∧
    exec .bulkWrite s = .next (commandResult 0x93#8 .bulkWrite .ramAddress s)

/-- R119, class S, the instruction itself: it completes with exactly this state. -/
def Obligations.StatusCommand : Prop :=
  ∀ s : State, s.accCount = 0#3 → exec .status s = .next (commandResult 0x55#8 .status .errorCode s)

/-- R120, class U, the instruction itself, for every code: it completes with exactly this state, and the element keeps the
code. -/
def Obligations.UnknownCommand : Prop :=
  ∀ (code : Byte) (s : State), s.accCount = 0#3 →
    exec (.unknown code) s = .next (commandResult code .unknown .value s)

/-- The frame of every instruction, in every state: it completes, closes its 1-byte field, and writes none of
`header_match_index`, `declared_length`, the input port, the stream and the reset mark (R106, "State written"). -/
def Obligations.CommandsFrame : Prop :=
  ∀ (i : Instr) (s : State), ∃ t : State, exec i s = .next t ∧
    t.accCount = 0#3 ∧ t.currentCommand = i.command ∧ t.state = nextAfterCommand i.command ∧
    t.headerMatchIndex = s.headerMatchIndex ∧ t.declaredLength = s.declaredLength ∧ t.inp = s.inp ∧
    t.pending = s.pending ∧ t.resetSeen = s.resetSeen ∧
    (s.declaredLength = 0#16 → t.consumedLength = s.consumedLength) ∧
    (s.accCount ≠ 0#3 → t.packetStartTime = s.packetStartTime)

/-! ## RAM_ADDRESS, ERROR_CODE, VALUE, CHECKSUM -/

/-- R126: the two bytes of RAM_ADDRESS, reported low byte first, always on to VALUE; the guard fires instead exactly with a
declared length of 1. -/
def Obligations.RamAddressField : Prop :=
  ∀ (s : State) (c0 c1 : Cycle) (rest : List Cycle), s.Inv → s.resetSeen = true → s.pending = c0 :: c1 :: rest →
    c0.isByte = true → c1.isByte = true → s.state = .ramAddress → s.accCount = 0#3 →
    (s.declaredLength = 1#16 → step s = .next (frameErrorResult (s.receive c0 (c1 :: rest)))) ∧
    (s.declaredLength ≠ 1#16 →
      let t := firstOfTwo (s.receive c0 (c1 :: rest))
      step s = .next t ∧
      step t = .next { t.receive c1 rest with
        state := .value
        accBytes := [c0.byte, c1.byte]
        accCount := 0#3
        fieldValue := (c1.byte ++ c0.byte : BitVec 16).setWidth 32
        consumedLength := if s.declaredLength = 0#16 then 0#17 else 3#17
        out := some
          { kind := .ramAddress, tStart := c0.tStart, tEnd := c1.tEnd, payload := .int (c1.byte ++ c0.byte) } })

/-- R127 and the step of R128: the raw byte is reported; the way on is CHECKSUM exactly when 2 bytes remain after it, which
is a declared length of 4, and VALUE otherwise, whatever the byte; the guard fires instead with a declared length of 1. That
"remain" is measured after this byte is counted is the spec's own inference (R128). -/
def Obligations.ErrorCodeByte : Prop :=
  ∀ (s : State) (c : Cycle) (rest : List Cycle), s.Inv → s.resetSeen = true → s.pending = c :: rest →
    c.isByte = true → s.state = .errorCode →
    (s.declaredLength = 1#16 → step s = .next (frameErrorResult (s.receive c rest))) ∧
    (s.declaredLength ≠ 1#16 →
      let n : BitVec 17 := if s.declaredLength = 0#16 then 0#17 else 2#17
      let next := if (s.declaredLength.toNat : Int) - (n.toNat : Int) = 2 then PacketState.checksum else .value
      (next = .checksum ↔ s.declaredLength = 4#16) ∧
      step s = .next { s.receive c rest with
        state := next
        accBytes := [c.byte]
        packetStartTime := c.tStart
        fieldValue := c.byte.setWidth 32
        consumedLength := n
        out := some
          { kind := .errorCode, tStart := c.tStart, tEnd := c.tEnd, payload := .int (c.byte.setWidth 16) } })

/-- R129 to R131, one byte in VALUE: with at least 2 bytes remaining the first byte of a chunk is held; with fewer, even none
or less, it is a 1-byte chunk; the second byte of a chunk completes it. A completed chunk is counted and reported, and
the way on is CHECKSUM exactly when `consumed_length = declared_length - 2` after it. -/
def Obligations.ValueByte : Prop :=
  ∀ (s : State) (c : Cycle) (rest : List Cycle), s.Inv → s.TakesByte c rest → s.state = .value →
    let remaining : Int := (s.declaredLength.toNat : Int) - (s.consumedLength.toNat : Int) - 2
    let next (n : BitVec 17) : PacketState :=
      if (n.toNat : Int) = (s.declaredLength.toNat : Int) - 2 then .checksum else .value
    (s.accCount = 0#3 → 2 ≤ remaining → step s = .next (firstOfTwo (s.receive c rest))) ∧
    (s.accCount = 0#3 → remaining ≤ 1 → step s = .next { s.receive c rest with
      state := next (s.counted 1)
      accBytes := [c.byte]
      packetStartTime := c.tStart
      fieldValue := c.byte.setWidth 32
      consumedLength := s.counted 1
      out := some { kind := .value, tStart := c.tStart, tEnd := c.tEnd, payload := .int (c.byte.setWidth 16) } }) ∧
    (∀ b0 : Byte, s.accCount = 1#3 → s.accBytes = [b0] → step s = .next { s.receive c rest with
      state := next (s.counted 2)
      accBytes := [b0, c.byte]
      accCount := 0#3
      fieldValue := (c.byte ++ b0 : BitVec 16).setWidth 32
      consumedLength := s.counted 2
      out := some
        { kind := .value, tStart := s.packetStartTime, tEnd := c.tEnd, payload := .int (c.byte ++ b0) } })

/-- R132, what VALUE does with a packet whose declared length leaves value bytes (case 1; the rule is the spec's own
inference from R129 to R131): `k = L - 2 - c` bytes are reported in chunks of 2 with a last chunk of 1, and CHECKSUM is
reached exactly on the last of them. -/
def Obligations.ValuePhaseNormal : Prop :=
  ∀ (s : State) (cs rest : List Cycle), s.Inv → s.resetSeen = true → s.state = .value → s.accCount = 0#3 →
    s.consumedLength.toNat + 2 + cs.length = s.declaredLength.toNat → cs ≠ [] → (∀ c ∈ cs, c.isByte = true) →
    s.pending = cs ++ rest →
    (∃ t : State, collect cs.length s = some (valueChunks cs, t) ∧ t.state = .checksum ∧ t.accCount = 0#3 ∧
      t.declaredLength = s.declaredLength ∧ t.consumedLength.toNat + 2 = s.declaredLength.toNat ∧ t.pending = rest) ∧
    (∀ k < cs.length, ∃ (es : List Element) (t : State), collect k s = some (es, t) ∧ t.state = .value)

/-- R132, case 2 (the spec's own inference): with no value byte left, `max(0, L - c)` bytes are reported one by one and the
byte after them draws the FrameError. -/
def Obligations.ValuePhaseOverrun : Prop :=
  ∀ (s : State) (cs : List Cycle) (d : Cycle) (rest : List Cycle), s.Inv → s.resetSeen = true → s.state = .value →
    s.accCount = 0#3 → s.declaredLength ≠ 0#16 → s.declaredLength.toNat ≤ s.consumedLength.toNat + 2 →
    cs.length = s.declaredLength.toNat - s.consumedLength.toNat → (∀ c ∈ cs ++ [d], c.isByte = true) →
    s.pending = cs ++ d :: rest →
    ∃ t : State,
      collect (cs.length + 1) s = some (valueBytes cs ++ [spanElement .frameError .empty d d], t) ∧
      t.AtPacketStart ∧ t.pending = rest

/-- R170 and case 3 of R132 (the spec's own inferences): with a declared length of 0 a command of class R, S or U leads to
VALUE, where every later byte is a 1-byte Value, however many there are and whatever they are; only reset leads out. -/
def Obligations.ZeroLengthLockUp : Prop :=
  ∀ (s : State) (c : Cycle) (pre cs rest : List Cycle), s.Inv → s.resetSeen = true → s.state = .command →
    s.declaredLength = 0#16 → (∀ x ∈ c :: (pre ++ cs), x.isByte = true) → s.pending = c :: (pre ++ cs ++ rest) →
    payloadClass (decodeCommand c.byte) ≠ .noPayload →
    pre.length = (match payloadClass (decodeCommand c.byte) with
      | .ramAddress => 2
      | .statusError => 1
      | _ => 0) →
    ∃ t : State,
      collect (1 + pre.length + cs.length) s =
        some (spanElement (.command (decodeCommand c.byte)) (int1 c) c c ::
          (payloadElements (payloadClass (decodeCommand c.byte)) pre ++ valueBytes cs), t) ∧
      t.state = .value ∧ t.declaredLength = 0#16 ∧ t.pending = rest ∧
      ∀ (d : Cycle) (r : List Cycle), rest = d :: r → d.rst = true → ∃ u : State, step t = .next u ∧ u.AtPacketStart

/-- R170 as a step (the spec's own inference): in the zero-length lock-up every cycle but a reset keeps it, and every byte is
reported as a 1-byte Value. -/
def Obligations.ZeroLengthLockUpIsKept : Prop :=
  ∀ s t : State, s.Locked → (∀ (c : Cycle) (rest : List Cycle), s.pending = c :: rest → c.rst = false) →
    step s = .next t →
    t.Locked ∧ ∀ (c : Cycle) (rest : List Cycle), s.pending = c :: rest → c.isByte = true →
      t.out = some (spanElement .value (int1 c) c c)

/-- R133 and R134: the two bytes of CHECKSUM are reported reversed and the packet closes, whatever the lengths then are. -/
def Obligations.ChecksumField : Prop :=
  ∀ (s : State) (c0 c1 : Cycle) (rest : List Cycle), s.TakesByte c0 (c1 :: rest) → c1.isByte = true →
    s.state = .checksum → s.accCount = 0#3 →
    let t := firstOfTwo (s.receive c0 (c1 :: rest))
    step s = .next t ∧
    step t = .next { t.receive c1 rest with
      state := .header
      accBytes := [c0.byte, c1.byte]
      accCount := 0#3
      fieldValue := (c1.byte ++ c0.byte : BitVec 16).setWidth 32
      declaredLength := 0#16
      consumedLength := 0#17
      out := some { kind := .checksum, tStart := c0.tStart, tEnd := c1.tEnd, payload := .bytes c1.byte c0.byte } }

/-! ## Reset, idle cycles, the end of the stream -/

/-- R161: in any state, before or after the first reset, a cycle with `rst = 1` gives every register the reset value the spec
states and no element, and the byte in it is ignored. The spec states no value for `packet_start_time`. -/
def Obligations.ResetCycle : Prop :=
  ∀ (s : State) (c : Cycle) (rest : List Cycle), s.pending = c :: rest → c.rst = true →
    ∃ t : State, step s = .next t ∧ t.state = .header ∧ t.declaredLength = 0#16 ∧ t.consumedLength = 0#17 ∧
      t.headerMatchIndex = 0#3 ∧ t.accCount = 0#3 ∧ t.accBytes = [] ∧ t.fieldValue = 0#32 ∧ t.currentCommand = .unknown ∧
      t.out = none ∧ t.resetSeen = true ∧ t.inp = c ∧ t.pending = rest

/-- The reset values of R14's table, in the state the model starts from. -/
def Obligations.ResetState : Prop :=
  State.reset.state = .header ∧ State.reset.accBytes = [] ∧ State.reset.accCount = 0#3 ∧
  State.reset.headerMatchIndex = 0#3 ∧ State.reset.fieldValue = 0#32 ∧ State.reset.declaredLength = 0#16 ∧
  State.reset.consumedLength = 0#17 ∧ State.reset.currentCommand = .unknown ∧ State.reset.AtPacketStart

/-- R163: a byte presented before the first reset has no meaning and is refused, by name. -/
def Obligations.ByteBeforeFirstResetRefused : Prop :=
  ∀ (s : State) (c : Cycle) (rest : List Cycle), s.pending = c :: rest → c.isByte = true → s.resetSeen = false →
    step s = .refused .beforeFirstReset

/-- R44: a cycle with `in_valid = 0` and `rst = 0` changes no state and reports nothing. -/
def Obligations.IdleCycle : Prop :=
  ∀ (s : State) (c : Cycle) (rest : List Cycle), s.pending = c :: rest → c.valid = false → c.rst = false →
    step s = .next (s.receive c rest)

/-- R166: when the byte source has nothing more to present, no step reports an element or changes a register, however many
steps there are: an armed error or a packet in progress is left as it is. -/
def Obligations.EndOfStream : Prop :=
  ∀ (s : State) (k : Nat), s.pending = [] →
    ∃ t : State, collect k s = some ([], t) ∧ t.state = s.state ∧ t.accBytes = s.accBytes ∧ t.accCount = s.accCount ∧
      t.headerMatchIndex = s.headerMatchIndex ∧ t.fieldValue = s.fieldValue ∧ t.declaredLength = s.declaredLength ∧
      t.consumedLength = s.consumedLength ∧ t.currentCommand = s.currentCommand ∧
      t.packetStartTime = s.packetStartTime ∧ t.resetSeen = s.resetSeen ∧ t.pending = []

/-- R44: idle cycles are invisible to decoding. Taking every idle cycle out of a stream changes neither the elements nor the
registers after it, nor whether a step stops. -/
def Obligations.IdleCyclesAreInvisible : Prop :=
  ∀ (s : State) (cs : List Cycle), runStream cs s = runStream (cs.filter fun c => c.rst || c.valid) s

/-! ## The whole machine -/

/-- The state after reset meets the invariant. -/
def Obligations.InvariantAtReset : Prop := State.reset.Inv

/-- Every step keeps the invariant: the ranges of R14, the bound of R24, and R31 and R32 (the last three are the spec's own
inferences). -/
def Obligations.StepKeepsInvariant : Prop :=
  ∀ s t : State, s.Inv → step s = .next t → t.Inv

/-- R101 (the spec's own inference): in every state that meets the invariant, every cycle completes; no step stops after a
reset. -/
def Obligations.ByteStepsComplete : Prop :=
  ∀ s : State, s.Inv → s.resetSeen = true → ∃ t : State, step s = .next t ∧ t.resetSeen = true

/-- R91: the successor of a byte step, row by row, of a reset and of an idle cycle. The counts of the ERROR_CODE and VALUE rows
are those after the byte, and a chunk is complete when no byte is held. -/
def Obligations.SuccessorRelation : Prop :=
  ∀ (s t : State) (c : Cycle) (rest : List Cycle), s.Inv → s.pending = c :: rest → step s = .next t →
    (c.rst = true → t.state = .header) ∧
    (c.rst = false → c.valid = false → t.state = s.state) ∧
    (s.Overruns c rest → t.state = .header) ∧
    (s.TakesByte c rest → t.state = (match s.state with
      | .header => if s.headerMatchIndex = 3#3 ∧ c.byte = 0x00#8 then .address else .header
      | .address => .length
      | .length => if s.accCount = 0#3 then .length else .command
      | .command => nextAfterCommand (decodeCommand c.byte)
      | .ramAddress => if s.accCount = 0#3 then .ramAddress else .value
      | .errorCode =>
        if (t.declaredLength.toNat : Int) - (t.consumedLength.toNat : Int) = 2 then .checksum else .value
      | .value =>
        if t.accCount = 0#3 ∧ (t.consumedLength.toNat : Int) = (t.declaredLength.toNat : Int) - 2 then .checksum
        else .value
      | .checksum => if s.accCount = 0#3 then .checksum else .header))

/-- The writers of the registers (10_state.md sections 2 to 5): a byte step that is not the guard's writes
`header_match_index` only in HEADER, `current_command` only in COMMAND, `declared_length` only in HEADER, LENGTH and
CHECKSUM; ADDRESS writes the packet state alone; and no rule writes the stream or the reset mark. -/
def Obligations.RegisterWriters : Prop :=
  ∀ (s t : State) (c : Cycle) (rest : List Cycle), s.TakesByte c rest → step s = .next t →
    (s.state ≠ .header → t.headerMatchIndex = s.headerMatchIndex) ∧
    (s.state ≠ .command → t.currentCommand = s.currentCommand) ∧
    (s.state ≠ .header → s.state ≠ .length → s.state ≠ .checksum → t.declaredLength = s.declaredLength) ∧
    (s.state = .address → t.accBytes = s.accBytes ∧ t.accCount = s.accCount ∧ t.fieldValue = s.fieldValue ∧
      t.consumedLength = s.consumedLength ∧ t.packetStartTime = s.packetStartTime) ∧
    t.pending = rest ∧ t.inp = c ∧ t.resetSeen = s.resetSeen

/-- R74: an element ends with the byte of its step; Address and FrameError start with it too, every other element with the
first byte of its field, which is the current byte when no field is in progress and otherwise the one whose time
`packet_start_time` holds. -/
def Obligations.ElementSpans : Prop :=
  ∀ (s t : State) (c : Cycle) (rest : List Cycle) (e : Element), s.pending = c :: rest → step s = .next t →
    t.out = some e →
    e.tEnd = c.tEnd ∧
    e.tStart = (if e.kind = .address ∨ e.kind = .frameError ∨ s.accCount = 0#3 then c.tStart else s.packetStartTime)

/-- R73: the payload of every element a byte step reports, by its kind. The integer of Length, RamAddress and Value is the
little-endian value of the field's bytes, which are still held after the step (R85). -/
def Obligations.ElementPayloads : Prop :=
  ∀ (s t : State) (c : Cycle) (rest : List Cycle) (e : Element), s.pending = c :: rest → step s = .next t →
    t.out = some e →
    match e.kind with
    | .header => e.payload = .empty
    | .address => e.payload = .int (c.byte.setWidth 16)
    | .length => e.payload = .int (BitVec.ofNat 16 (littleEndian t.accBytes))
    | .command _ => e.payload = .int (c.byte.setWidth 16)
    | .ramAddress => e.payload = .int (BitVec.ofNat 16 (littleEndian t.accBytes))
    | .errorCode => e.payload = .int (c.byte.setWidth 16)
    | .value => e.payload = .int (BitVec.ofNat 16 (littleEndian t.accBytes))
    | .checksum => ∃ (c0 c1 : Byte) (more : List Byte), t.accBytes = c0 :: c1 :: more ∧ e.payload = .bytes c1 c0
    | .frameError => e.payload = .empty

/-- R58: the block only copies timestamps. Renaming every time in the state by any function renames the times of the next
state and changes nothing else. The one time the block writes that it was not given is the model's reset value
(notes/assumptions/2.md), so the function keeps that one, or the cycle is no reset. -/
def Obligations.TimesAreOnlyCopied : Prop :=
  ∀ (f : Config.Time → Config.Time) (s : State),
    f Config.resetTime = Config.resetTime ∨ (∀ (c : Cycle) (rest : List Cycle), s.pending = c :: rest → c.rst = false) →
    step (s.mapTimes f) = mapNext (State.mapTimes f) (step s)

/-- R143 (the spec's own inference): where a byte step that is not the guard's can leave the guard's condition behind. -/
def Obligations.WhereOverrunsArise : Prop :=
  ∀ (s t : State) (c : Cycle) (rest : List Cycle), s.Inv → s.TakesByte c rest → step s = .next t →
    t.declaredLength ≠ 0#16 → t.declaredLength.toNat ≤ t.consumedLength.toNat →
    (s.state = .header ∧ s.headerMatchIndex ≠ 0#3) ∨
    (s.state = .command ∧ s.declaredLength = 1#16) ∨
    (s.state = .ramAddress ∧ (s.declaredLength = 2#16 ∨ s.declaredLength = 3#16)) ∨
    (s.state = .errorCode ∧ s.declaredLength = 2#16) ∨
    (s.state = .value ∧ s.declaredLength.toNat ≤ s.consumedLength.toNat + 2)

/-- R148 (the spec's own inference): after a FrameError no FrameError comes before the third byte, however many idle cycles
and resets stand between the bytes, and no step stops; and on the third byte one can come: `FF`, a byte that is not `FF`, any
byte. -/
def Obligations.FrameErrorsAreThreeBytesApart : Prop :=
  (∀ (s : State) (c : Cycle) (cs rest : List Cycle), s.Overruns c (cs ++ rest) → (cs.filter Cycle.isByte).length ≤ 2 →
    ∃ (es : List Element) (t : State),
      collect (cs.length + 1) s = some (spanElement .frameError .empty c c :: es, t) ∧
      (∀ e ∈ es, e.kind ≠ .frameError) ∧ t.pending = rest) ∧
  (∀ (s : State) (c d0 d1 d2 : Cycle) (rest : List Cycle), s.Overruns c (d0 :: d1 :: d2 :: rest) →
    d0.isByte = true → d1.isByte = true → d2.isByte = true → d0.byte = 0xFF#8 → d1.byte ≠ 0xFF#8 →
    ∃ t : State, collect 4 s =
      some ([spanElement .frameError .empty c c, spanElement .frameError .empty d2 d2], t) ∧ t.AtPacketStart)

/-- R169 (the spec's own inference): when the guard fires on the first `FF` of a header, the header is cut, and its last byte
draws a second FrameError. -/
def Obligations.GuardCutsTheNextHeader : Prop :=
  ∀ (s : State) (c0 c1 c2 c3 : Cycle) (rest : List Cycle), s.Overruns c0 (c1 :: c2 :: c3 :: rest) →
    c1.isByte = true → c2.isByte = true → c3.isByte = true →
    [c0.byte, c1.byte, c2.byte, c3.byte] = headerPattern →
    ∃ t : State, collect 4 s =
      some ([spanElement .frameError .empty c0 c0, spanElement .frameError .empty c3 c3], t) ∧ t.AtPacketStart ∧
      t.pending = rest

/-- R168 (the spec's own inference): a header that begins on a byte that breaks a partial match, or on the byte after it, is
not detected, at every index and for every breaking byte. In the first case its second byte draws the FrameError and the
rest is scanned; in the second its first byte draws one, its second byte starts a match that its third breaks, and its
fourth draws another. -/
def Obligations.BrokenMatchLosesTheNextHeader : Prop :=
  (∀ (s : State) (c0 c1 c2 c3 : Cycle) (rest : List Cycle), s.Inv → s.TakesByte c0 (c1 :: c2 :: c3 :: rest) →
    s.state = .header → s.headerMatchIndex ≠ 0#3 → headerPattern[s.headerMatchIndex.toNat]? ≠ some c0.byte →
    (∀ c ∈ [c1, c2, c3], c.isByte = true) → [c0.byte, c1.byte, c2.byte, c3.byte] = headerPattern →
    ∃ t : State, collect 4 s = some ([spanElement .frameError .empty c1 c1], t) ∧ t.AtPacketStart ∧ t.pending = rest) ∧
  (∀ (s : State) (b c0 c1 c2 c3 : Cycle) (rest : List Cycle), s.Inv →
    s.TakesByte b (c0 :: c1 :: c2 :: c3 :: rest) → s.state = .header → s.headerMatchIndex ≠ 0#3 →
    headerPattern[s.headerMatchIndex.toNat]? ≠ some b.byte →
    (∀ c ∈ [c0, c1, c2, c3], c.isByte = true) → [c0.byte, c1.byte, c2.byte, c3.byte] = headerPattern →
    ∃ t : State, collect 5 s =
      some ([spanElement .frameError .empty c0 c0, spanElement .frameError .empty c3 c3], t) ∧ t.AtPacketStart ∧
      t.pending = rest)

/-- Lengths too short for the command's class (R111, R119, R120 with R132, partly the spec's own inferences): from COMMAND
with a declared length that leaves class R, S or U no value byte, the packet ends in one FrameError. It is drawn by the
byte after the `L` bytes that the length declares, the command byte counted; only with class R and `L = 2` is it drawn by
the fourth byte, because the RAM address completes first. Class S with `L = 4` closes normally and is not included. -/
def Obligations.ShortLengthsEndInFrameError : Prop :=
  ∀ (s : State) (c d : Cycle) (xs rest : List Cycle), s.Inv → s.resetSeen = true → s.state = .command →
    s.declaredLength ≠ 0#16 →
    s.declaredLength.toNat < (match payloadClass (decodeCommand c.byte) with
      | .noPayload => 0
      | .ramAddress => 6
      | .statusError => 4
      | .unknown => 4) →
    1 + xs.length = (if payloadClass (decodeCommand c.byte) = .ramAddress ∧ s.declaredLength = 2#16 then 3
      else s.declaredLength.toNat) →
    (∀ x ∈ c :: (xs ++ [d]), x.isByte = true) → s.pending = c :: (xs ++ d :: rest) →
    ∃ (es : List Element) (t : State),
      collect (1 + xs.length + 1) s = some (es ++ [spanElement .frameError .empty d d], t) ∧
      (∀ e ∈ es, e.kind ≠ .frameError) ∧ t.AtPacketStart ∧ t.pending = rest

/-- One step of two states that differ at most in what no rule reads before writing it (R21, R25, R26; the spec's own
inference): both complete, report the same element, and differ in no more than that. -/
def Obligations.StepKeepsUnreadDifferences : Prop :=
  ∀ s s' t : State, s.SameToLaterSteps s' → step s = .next t →
    ∃ t' : State, step s' = .next t' ∧ t.SameToLaterSteps t' ∧ t.out = t'.out

/-- What no rule reads before writing it never shows: two states that agree on the rest report the same elements in any
number of steps, and stop together (R21, R25, R26; the rules' "unobservable" is the spec's own inference). -/
def Obligations.UnreadRegistersNeverShow : Prop :=
  ∀ (k : Nat) (s t : State), s.SameToLaterSteps t →
    (collect k s).map Prod.fst = (collect k t).map Prod.fst

/-- R149 (the spec's own inference): after the guard has fired, and after a Checksum element, the registers it names stand as
after reset, and the elements of the bytes to come are those of a freshly reset block. -/
def Obligations.ErrorAndChecksumResynchronise : Prop :=
  ∀ (s t : State) (c : Cycle) (rest : List Cycle) (e : Element), s.pending = c :: rest → step s = .next t →
    t.out = some e → (e.kind = .frameError ∨ e.kind = .checksum) → s.Inv →
    t.AtPacketStart ∧
    ∀ k : Nat, (collect k t).map Prod.fst = (collect k (State.reset.withStream rest)).map Prod.fst

/-- The headline (30_encoding.md R64 and R65, 20_memory.md R52; what closes normally is the spec's own inference): from any
state where no packet is in progress, every packet that R65 says closes normally, of every command, every address, every
length R65 admits (for class C every one but 1) and every checksum, gives exactly its elements in order, and leaves the block
where it can take the next packet. -/
def Obligations.NormalPacketsDecode : Prop :=
  ∀ (s : State) (p : Packet) (rest : List Cycle), s.AtPacketStart → s.resetSeen = true → p.ClosesNormally →
    s.pending = p.cycles ++ rest →
    ∃ t : State, collect p.cycles.length s = some (p.elements, t) ∧ t.AtPacketStart ∧ t.resetSeen = true ∧
      t.pending = rest
end

