-- ==== Sys2Proof/Laws/State.lean ====
section
/-! SUPPORT. What each named update does to each field of State, one lemma per field per update, true by rfl, so that no
later proof unfolds a record update. -/

namespace Sys2Proof.Machine

section
variable (s : State)

/-! ### goto -/

@[simp] theorem State.goto_state (p : PacketState) : (s.goto p).state = p := rfl
@[simp] theorem State.goto_accBytes (p : PacketState) : (s.goto p).accBytes = s.accBytes := rfl
@[simp] theorem State.goto_accCount (p : PacketState) : (s.goto p).accCount = s.accCount := rfl
@[simp] theorem State.goto_headerMatchIndex (p : PacketState) :
    (s.goto p).headerMatchIndex = s.headerMatchIndex := rfl
@[simp] theorem State.goto_fieldValue (p : PacketState) : (s.goto p).fieldValue = s.fieldValue := rfl
@[simp] theorem State.goto_declaredLength (p : PacketState) : (s.goto p).declaredLength = s.declaredLength := rfl
@[simp] theorem State.goto_consumedLength (p : PacketState) : (s.goto p).consumedLength = s.consumedLength := rfl
@[simp] theorem State.goto_currentCommand (p : PacketState) : (s.goto p).currentCommand = s.currentCommand := rfl
@[simp] theorem State.goto_packetStartTime (p : PacketState) : (s.goto p).packetStartTime = s.packetStartTime := rfl
@[simp] theorem State.goto_out (p : PacketState) : (s.goto p).out = s.out := rfl
@[simp] theorem State.goto_inp (p : PacketState) : (s.goto p).inp = s.inp := rfl
@[simp] theorem State.goto_resetSeen (p : PacketState) : (s.goto p).resetSeen = s.resetSeen := rfl
@[simp] theorem State.goto_pending (p : PacketState) : (s.goto p).pending = s.pending := rfl

/-! ### emit -/

@[simp] theorem State.emit_state (k : Kind) (ts te : Config.Time) (p : Payload) :
    (s.emit k ts te p).state = s.state := rfl
@[simp] theorem State.emit_accBytes (k : Kind) (ts te : Config.Time) (p : Payload) :
    (s.emit k ts te p).accBytes = s.accBytes := rfl
@[simp] theorem State.emit_accCount (k : Kind) (ts te : Config.Time) (p : Payload) :
    (s.emit k ts te p).accCount = s.accCount := rfl
@[simp] theorem State.emit_headerMatchIndex (k : Kind) (ts te : Config.Time) (p : Payload) :
    (s.emit k ts te p).headerMatchIndex = s.headerMatchIndex := rfl
@[simp] theorem State.emit_fieldValue (k : Kind) (ts te : Config.Time) (p : Payload) :
    (s.emit k ts te p).fieldValue = s.fieldValue := rfl
@[simp] theorem State.emit_declaredLength (k : Kind) (ts te : Config.Time) (p : Payload) :
    (s.emit k ts te p).declaredLength = s.declaredLength := rfl
@[simp] theorem State.emit_consumedLength (k : Kind) (ts te : Config.Time) (p : Payload) :
    (s.emit k ts te p).consumedLength = s.consumedLength := rfl
@[simp] theorem State.emit_currentCommand (k : Kind) (ts te : Config.Time) (p : Payload) :
    (s.emit k ts te p).currentCommand = s.currentCommand := rfl
@[simp] theorem State.emit_packetStartTime (k : Kind) (ts te : Config.Time) (p : Payload) :
    (s.emit k ts te p).packetStartTime = s.packetStartTime := rfl
@[simp] theorem State.emit_out (k : Kind) (ts te : Config.Time) (p : Payload) :
    (s.emit k ts te p).out = some { kind := k, tStart := ts, tEnd := te, payload := p } := rfl
@[simp] theorem State.emit_inp (k : Kind) (ts te : Config.Time) (p : Payload) : (s.emit k ts te p).inp = s.inp := rfl
@[simp] theorem State.emit_resetSeen (k : Kind) (ts te : Config.Time) (p : Payload) :
    (s.emit k ts te p).resetSeen = s.resetSeen := rfl
@[simp] theorem State.emit_pending (k : Kind) (ts te : Config.Time) (p : Payload) :
    (s.emit k ts te p).pending = s.pending := rfl

/-! ### emitField -/

@[simp] theorem State.emitField_state (k : Kind) (p : Payload) : (s.emitField k p).state = s.state := rfl
@[simp] theorem State.emitField_accBytes (k : Kind) (p : Payload) : (s.emitField k p).accBytes = s.accBytes := rfl
@[simp] theorem State.emitField_accCount (k : Kind) (p : Payload) : (s.emitField k p).accCount = s.accCount := rfl
@[simp] theorem State.emitField_headerMatchIndex (k : Kind) (p : Payload) :
    (s.emitField k p).headerMatchIndex = s.headerMatchIndex := rfl
@[simp] theorem State.emitField_fieldValue (k : Kind) (p : Payload) :
    (s.emitField k p).fieldValue = s.fieldValue := rfl
@[simp] theorem State.emitField_declaredLength (k : Kind) (p : Payload) :
    (s.emitField k p).declaredLength = s.declaredLength := rfl
@[simp] theorem State.emitField_consumedLength (k : Kind) (p : Payload) :
    (s.emitField k p).consumedLength = s.consumedLength := rfl
@[simp] theorem State.emitField_currentCommand (k : Kind) (p : Payload) :
    (s.emitField k p).currentCommand = s.currentCommand := rfl
@[simp] theorem State.emitField_packetStartTime (k : Kind) (p : Payload) :
    (s.emitField k p).packetStartTime = s.packetStartTime := rfl
@[simp] theorem State.emitField_out (k : Kind) (p : Payload) :
    (s.emitField k p).out = some { kind := k, tStart := s.packetStartTime, tEnd := s.inp.tEnd, payload := p } := rfl
@[simp] theorem State.emitField_inp (k : Kind) (p : Payload) : (s.emitField k p).inp = s.inp := rfl
@[simp] theorem State.emitField_resetSeen (k : Kind) (p : Payload) : (s.emitField k p).resetSeen = s.resetSeen := rfl
@[simp] theorem State.emitField_pending (k : Kind) (p : Payload) : (s.emitField k p).pending = s.pending := rfl

/-! ### setLengths -/

@[simp] theorem State.setLengths_state (d : BitVec 16) (c : BitVec 17) : (s.setLengths d c).state = s.state := rfl
@[simp] theorem State.setLengths_accBytes (d : BitVec 16) (c : BitVec 17) :
    (s.setLengths d c).accBytes = s.accBytes := rfl
@[simp] theorem State.setLengths_accCount (d : BitVec 16) (c : BitVec 17) :
    (s.setLengths d c).accCount = s.accCount := rfl
@[simp] theorem State.setLengths_headerMatchIndex (d : BitVec 16) (c : BitVec 17) :
    (s.setLengths d c).headerMatchIndex = s.headerMatchIndex := rfl
@[simp] theorem State.setLengths_fieldValue (d : BitVec 16) (c : BitVec 17) :
    (s.setLengths d c).fieldValue = s.fieldValue := rfl
@[simp] theorem State.setLengths_declaredLength (d : BitVec 16) (c : BitVec 17) :
    (s.setLengths d c).declaredLength = d := rfl
@[simp] theorem State.setLengths_consumedLength (d : BitVec 16) (c : BitVec 17) :
    (s.setLengths d c).consumedLength = c := rfl
@[simp] theorem State.setLengths_currentCommand (d : BitVec 16) (c : BitVec 17) :
    (s.setLengths d c).currentCommand = s.currentCommand := rfl
@[simp] theorem State.setLengths_packetStartTime (d : BitVec 16) (c : BitVec 17) :
    (s.setLengths d c).packetStartTime = s.packetStartTime := rfl
@[simp] theorem State.setLengths_out (d : BitVec 16) (c : BitVec 17) : (s.setLengths d c).out = s.out := rfl
@[simp] theorem State.setLengths_inp (d : BitVec 16) (c : BitVec 17) : (s.setLengths d c).inp = s.inp := rfl
@[simp] theorem State.setLengths_resetSeen (d : BitVec 16) (c : BitVec 17) :
    (s.setLengths d c).resetSeen = s.resetSeen := rfl
@[simp] theorem State.setLengths_pending (d : BitVec 16) (c : BitVec 17) :
    (s.setLengths d c).pending = s.pending := rfl

/-! ### setMatchIndex -/

@[simp] theorem State.setMatchIndex_state (i : BitVec 3) : (s.setMatchIndex i).state = s.state := rfl
@[simp] theorem State.setMatchIndex_accBytes (i : BitVec 3) : (s.setMatchIndex i).accBytes = s.accBytes := rfl
@[simp] theorem State.setMatchIndex_accCount (i : BitVec 3) : (s.setMatchIndex i).accCount = s.accCount := rfl
@[simp] theorem State.setMatchIndex_headerMatchIndex (i : BitVec 3) : (s.setMatchIndex i).headerMatchIndex = i := rfl
@[simp] theorem State.setMatchIndex_fieldValue (i : BitVec 3) : (s.setMatchIndex i).fieldValue = s.fieldValue := rfl
@[simp] theorem State.setMatchIndex_declaredLength (i : BitVec 3) :
    (s.setMatchIndex i).declaredLength = s.declaredLength := rfl
@[simp] theorem State.setMatchIndex_consumedLength (i : BitVec 3) :
    (s.setMatchIndex i).consumedLength = s.consumedLength := rfl
@[simp] theorem State.setMatchIndex_currentCommand (i : BitVec 3) :
    (s.setMatchIndex i).currentCommand = s.currentCommand := rfl
@[simp] theorem State.setMatchIndex_packetStartTime (i : BitVec 3) :
    (s.setMatchIndex i).packetStartTime = s.packetStartTime := rfl
@[simp] theorem State.setMatchIndex_out (i : BitVec 3) : (s.setMatchIndex i).out = s.out := rfl
@[simp] theorem State.setMatchIndex_inp (i : BitVec 3) : (s.setMatchIndex i).inp = s.inp := rfl
@[simp] theorem State.setMatchIndex_resetSeen (i : BitVec 3) : (s.setMatchIndex i).resetSeen = s.resetSeen := rfl
@[simp] theorem State.setMatchIndex_pending (i : BitVec 3) : (s.setMatchIndex i).pending = s.pending := rfl

/-! ### setCommand -/

@[simp] theorem State.setCommand_state (c : Command) : (s.setCommand c).state = s.state := rfl
@[simp] theorem State.setCommand_accBytes (c : Command) : (s.setCommand c).accBytes = s.accBytes := rfl
@[simp] theorem State.setCommand_accCount (c : Command) : (s.setCommand c).accCount = s.accCount := rfl
@[simp] theorem State.setCommand_headerMatchIndex (c : Command) :
    (s.setCommand c).headerMatchIndex = s.headerMatchIndex := rfl
@[simp] theorem State.setCommand_fieldValue (c : Command) : (s.setCommand c).fieldValue = s.fieldValue := rfl
@[simp] theorem State.setCommand_declaredLength (c : Command) :
    (s.setCommand c).declaredLength = s.declaredLength := rfl
@[simp] theorem State.setCommand_consumedLength (c : Command) :
    (s.setCommand c).consumedLength = s.consumedLength := rfl
@[simp] theorem State.setCommand_currentCommand (c : Command) : (s.setCommand c).currentCommand = c := rfl
@[simp] theorem State.setCommand_packetStartTime (c : Command) :
    (s.setCommand c).packetStartTime = s.packetStartTime := rfl
@[simp] theorem State.setCommand_out (c : Command) : (s.setCommand c).out = s.out := rfl
@[simp] theorem State.setCommand_inp (c : Command) : (s.setCommand c).inp = s.inp := rfl
@[simp] theorem State.setCommand_resetSeen (c : Command) : (s.setCommand c).resetSeen = s.resetSeen := rfl
@[simp] theorem State.setCommand_pending (c : Command) : (s.setCommand c).pending = s.pending := rfl

/-! ### appendByte -/

@[simp] theorem State.appendByte_state (b : Byte) : (s.appendByte b).state = s.state := rfl
@[simp] theorem State.appendByte_accBytes (b : Byte) : (s.appendByte b).accBytes = s.accBytes ++ [b] := rfl
@[simp] theorem State.appendByte_accCount (b : Byte) : (s.appendByte b).accCount = s.accCount := rfl
@[simp] theorem State.appendByte_headerMatchIndex (b : Byte) :
    (s.appendByte b).headerMatchIndex = s.headerMatchIndex := rfl
@[simp] theorem State.appendByte_fieldValue (b : Byte) : (s.appendByte b).fieldValue = s.fieldValue := rfl
@[simp] theorem State.appendByte_declaredLength (b : Byte) : (s.appendByte b).declaredLength = s.declaredLength := rfl
@[simp] theorem State.appendByte_consumedLength (b : Byte) : (s.appendByte b).consumedLength = s.consumedLength := rfl
@[simp] theorem State.appendByte_currentCommand (b : Byte) : (s.appendByte b).currentCommand = s.currentCommand := rfl
@[simp] theorem State.appendByte_packetStartTime (b : Byte) :
    (s.appendByte b).packetStartTime = s.packetStartTime := rfl
@[simp] theorem State.appendByte_out (b : Byte) : (s.appendByte b).out = s.out := rfl
@[simp] theorem State.appendByte_inp (b : Byte) : (s.appendByte b).inp = s.inp := rfl
@[simp] theorem State.appendByte_resetSeen (b : Byte) : (s.appendByte b).resetSeen = s.resetSeen := rfl
@[simp] theorem State.appendByte_pending (b : Byte) : (s.appendByte b).pending = s.pending := rfl

/-! ### completeField -/

@[simp] theorem State.completeField_state (n : Nat) : (s.completeField n).state = s.state := rfl
@[simp] theorem State.completeField_accBytes (n : Nat) : (s.completeField n).accBytes = s.accBytes := rfl
@[simp] theorem State.completeField_accCount (n : Nat) : (s.completeField n).accCount = 0#3 := rfl
@[simp] theorem State.completeField_headerMatchIndex (n : Nat) :
    (s.completeField n).headerMatchIndex = s.headerMatchIndex := rfl
@[simp] theorem State.completeField_fieldValue (n : Nat) :
    (s.completeField n).fieldValue = BitVec.ofNat 32 (littleEndian s.accBytes) := rfl
@[simp] theorem State.completeField_declaredLength (n : Nat) :
    (s.completeField n).declaredLength = s.declaredLength := rfl
@[simp] theorem State.completeField_consumedLength (n : Nat) :
    (s.completeField n).consumedLength = if s.declaredLength = 0#16 then s.consumedLength else s.consumedLength + BitVec.ofNat 17 n := rfl
@[simp] theorem State.completeField_currentCommand (n : Nat) :
    (s.completeField n).currentCommand = s.currentCommand := rfl
@[simp] theorem State.completeField_packetStartTime (n : Nat) :
    (s.completeField n).packetStartTime = s.packetStartTime := rfl
@[simp] theorem State.completeField_out (n : Nat) : (s.completeField n).out = s.out := rfl
@[simp] theorem State.completeField_inp (n : Nat) : (s.completeField n).inp = s.inp := rfl
@[simp] theorem State.completeField_resetSeen (n : Nat) : (s.completeField n).resetSeen = s.resetSeen := rfl
@[simp] theorem State.completeField_pending (n : Nat) : (s.completeField n).pending = s.pending := rfl

/-! ### holdField -/

@[simp] theorem State.holdField_state (n : Nat) : (s.holdField n).state = s.state := rfl
@[simp] theorem State.holdField_accBytes (n : Nat) : (s.holdField n).accBytes = s.accBytes := rfl
@[simp] theorem State.holdField_accCount (n : Nat) : (s.holdField n).accCount = BitVec.ofNat 3 n := rfl
@[simp] theorem State.holdField_headerMatchIndex (n : Nat) :
    (s.holdField n).headerMatchIndex = s.headerMatchIndex := rfl
@[simp] theorem State.holdField_fieldValue (n : Nat) : (s.holdField n).fieldValue = s.fieldValue := rfl
@[simp] theorem State.holdField_declaredLength (n : Nat) : (s.holdField n).declaredLength = s.declaredLength := rfl
@[simp] theorem State.holdField_consumedLength (n : Nat) : (s.holdField n).consumedLength = s.consumedLength := rfl
@[simp] theorem State.holdField_currentCommand (n : Nat) : (s.holdField n).currentCommand = s.currentCommand := rfl
@[simp] theorem State.holdField_packetStartTime (n : Nat) : (s.holdField n).packetStartTime = s.packetStartTime := rfl
@[simp] theorem State.holdField_out (n : Nat) : (s.holdField n).out = s.out := rfl
@[simp] theorem State.holdField_inp (n : Nat) : (s.holdField n).inp = s.inp := rfl
@[simp] theorem State.holdField_resetSeen (n : Nat) : (s.holdField n).resetSeen = s.resetSeen := rfl
@[simp] theorem State.holdField_pending (n : Nat) : (s.holdField n).pending = s.pending := rfl

/-! ### overrunGuard -/

@[simp] theorem State.overrunGuard_state : s.overrunGuard.state = .header := rfl
@[simp] theorem State.overrunGuard_accBytes : s.overrunGuard.accBytes = [] := rfl
@[simp] theorem State.overrunGuard_accCount : s.overrunGuard.accCount = 0#3 := rfl
@[simp] theorem State.overrunGuard_headerMatchIndex : s.overrunGuard.headerMatchIndex = 0#3 := rfl
@[simp] theorem State.overrunGuard_fieldValue : s.overrunGuard.fieldValue = s.fieldValue := rfl
@[simp] theorem State.overrunGuard_declaredLength : s.overrunGuard.declaredLength = 0#16 := rfl
@[simp] theorem State.overrunGuard_consumedLength : s.overrunGuard.consumedLength = 0#17 := rfl
@[simp] theorem State.overrunGuard_currentCommand : s.overrunGuard.currentCommand = s.currentCommand := rfl
@[simp] theorem State.overrunGuard_packetStartTime : s.overrunGuard.packetStartTime = s.packetStartTime := rfl
@[simp] theorem State.overrunGuard_out :
    s.overrunGuard.out = some { kind := .frameError, tStart := s.inp.tStart, tEnd := s.inp.tEnd, payload := .empty } := rfl
@[simp] theorem State.overrunGuard_inp : s.overrunGuard.inp = s.inp := rfl
@[simp] theorem State.overrunGuard_resetSeen : s.overrunGuard.resetSeen = s.resetSeen := rfl
@[simp] theorem State.overrunGuard_pending : s.overrunGuard.pending = s.pending := rfl

/-! ### forceError -/

@[simp] theorem State.forceError_state : s.forceError.state = s.state := rfl
@[simp] theorem State.forceError_accBytes : s.forceError.accBytes = s.accBytes := rfl
@[simp] theorem State.forceError_accCount : s.forceError.accCount = s.accCount := rfl
@[simp] theorem State.forceError_headerMatchIndex : s.forceError.headerMatchIndex = s.headerMatchIndex := rfl
@[simp] theorem State.forceError_fieldValue : s.forceError.fieldValue = s.fieldValue := rfl
@[simp] theorem State.forceError_declaredLength : s.forceError.declaredLength = 1#16 := rfl
@[simp] theorem State.forceError_consumedLength : s.forceError.consumedLength = 1#17 := rfl
@[simp] theorem State.forceError_currentCommand : s.forceError.currentCommand = s.currentCommand := rfl
@[simp] theorem State.forceError_packetStartTime : s.forceError.packetStartTime = s.packetStartTime := rfl
@[simp] theorem State.forceError_out : s.forceError.out = s.out := rfl
@[simp] theorem State.forceError_inp : s.forceError.inp = s.inp := rfl
@[simp] theorem State.forceError_resetSeen : s.forceError.resetSeen = s.resetSeen := rfl
@[simp] theorem State.forceError_pending : s.forceError.pending = s.pending := rfl

/-! ### resetBlock -/

@[simp] theorem State.resetBlock_state : s.resetBlock.state = State.reset.state := rfl
@[simp] theorem State.resetBlock_accBytes : s.resetBlock.accBytes = State.reset.accBytes := rfl
@[simp] theorem State.resetBlock_accCount : s.resetBlock.accCount = State.reset.accCount := rfl
@[simp] theorem State.resetBlock_headerMatchIndex :
    s.resetBlock.headerMatchIndex = State.reset.headerMatchIndex := rfl
@[simp] theorem State.resetBlock_fieldValue : s.resetBlock.fieldValue = State.reset.fieldValue := rfl
@[simp] theorem State.resetBlock_declaredLength : s.resetBlock.declaredLength = State.reset.declaredLength := rfl
@[simp] theorem State.resetBlock_consumedLength : s.resetBlock.consumedLength = State.reset.consumedLength := rfl
@[simp] theorem State.resetBlock_currentCommand : s.resetBlock.currentCommand = State.reset.currentCommand := rfl
@[simp] theorem State.resetBlock_packetStartTime : s.resetBlock.packetStartTime = State.reset.packetStartTime := rfl
@[simp] theorem State.resetBlock_out : s.resetBlock.out = State.reset.out := rfl
@[simp] theorem State.resetBlock_inp : s.resetBlock.inp = s.inp := rfl
@[simp] theorem State.resetBlock_resetSeen : s.resetBlock.resetSeen = State.reset.resetSeen := rfl
@[simp] theorem State.resetBlock_pending : s.resetBlock.pending = s.pending := rfl

/-! ### placeCommand -/

@[simp] theorem State.placeCommand_state (b : Byte) : (s.placeCommand b).state = .command := rfl
@[simp] theorem State.placeCommand_accBytes (b : Byte) : (s.placeCommand b).accBytes = s.accBytes := rfl
@[simp] theorem State.placeCommand_accCount (b : Byte) : (s.placeCommand b).accCount = 0#3 := rfl
@[simp] theorem State.placeCommand_headerMatchIndex (b : Byte) :
    (s.placeCommand b).headerMatchIndex = s.headerMatchIndex := rfl
@[simp] theorem State.placeCommand_fieldValue (b : Byte) : (s.placeCommand b).fieldValue = s.fieldValue := rfl
@[simp] theorem State.placeCommand_declaredLength (b : Byte) :
    (s.placeCommand b).declaredLength = s.declaredLength := rfl
@[simp] theorem State.placeCommand_consumedLength (b : Byte) : (s.placeCommand b).consumedLength = 0#17 := rfl
@[simp] theorem State.placeCommand_currentCommand (b : Byte) :
    (s.placeCommand b).currentCommand = s.currentCommand := rfl
@[simp] theorem State.placeCommand_packetStartTime (b : Byte) :
    (s.placeCommand b).packetStartTime = s.packetStartTime := rfl
@[simp] theorem State.placeCommand_out (b : Byte) : (s.placeCommand b).out = s.out := rfl
@[simp] theorem State.placeCommand_inp (b : Byte) : (s.placeCommand b).inp = s.inp := rfl
@[simp] theorem State.placeCommand_resetSeen (b : Byte) : (s.placeCommand b).resetSeen = true := rfl
@[simp] theorem State.placeCommand_pending (b : Byte) :
    (s.placeCommand b).pending = { Cycle.idle with valid := true, byte := b } :: s.pending := rfl

/-! ### receive -/

@[simp] theorem State.receive_state (c : Cycle) (r : List Cycle) : (s.receive c r).state = s.state := rfl
@[simp] theorem State.receive_accBytes (c : Cycle) (r : List Cycle) : (s.receive c r).accBytes = s.accBytes := rfl
@[simp] theorem State.receive_accCount (c : Cycle) (r : List Cycle) : (s.receive c r).accCount = s.accCount := rfl
@[simp] theorem State.receive_headerMatchIndex (c : Cycle) (r : List Cycle) :
    (s.receive c r).headerMatchIndex = s.headerMatchIndex := rfl
@[simp] theorem State.receive_fieldValue (c : Cycle) (r : List Cycle) :
    (s.receive c r).fieldValue = s.fieldValue := rfl
@[simp] theorem State.receive_declaredLength (c : Cycle) (r : List Cycle) :
    (s.receive c r).declaredLength = s.declaredLength := rfl
@[simp] theorem State.receive_consumedLength (c : Cycle) (r : List Cycle) :
    (s.receive c r).consumedLength = s.consumedLength := rfl
@[simp] theorem State.receive_currentCommand (c : Cycle) (r : List Cycle) :
    (s.receive c r).currentCommand = s.currentCommand := rfl
@[simp] theorem State.receive_packetStartTime (c : Cycle) (r : List Cycle) :
    (s.receive c r).packetStartTime = s.packetStartTime := rfl
@[simp] theorem State.receive_out (c : Cycle) (r : List Cycle) : (s.receive c r).out = none := rfl
@[simp] theorem State.receive_inp (c : Cycle) (r : List Cycle) : (s.receive c r).inp = c := rfl
@[simp] theorem State.receive_resetSeen (c : Cycle) (r : List Cycle) : (s.receive c r).resetSeen = s.resetSeen := rfl
@[simp] theorem State.receive_pending (c : Cycle) (r : List Cycle) : (s.receive c r).pending = r := rfl

/-! ### withStream -/

@[simp] theorem State.withStream_state (cs : List Cycle) : (s.withStream cs).state = s.state := rfl
@[simp] theorem State.withStream_accBytes (cs : List Cycle) : (s.withStream cs).accBytes = s.accBytes := rfl
@[simp] theorem State.withStream_accCount (cs : List Cycle) : (s.withStream cs).accCount = s.accCount := rfl
@[simp] theorem State.withStream_headerMatchIndex (cs : List Cycle) :
    (s.withStream cs).headerMatchIndex = s.headerMatchIndex := rfl
@[simp] theorem State.withStream_fieldValue (cs : List Cycle) : (s.withStream cs).fieldValue = s.fieldValue := rfl
@[simp] theorem State.withStream_declaredLength (cs : List Cycle) :
    (s.withStream cs).declaredLength = s.declaredLength := rfl
@[simp] theorem State.withStream_consumedLength (cs : List Cycle) :
    (s.withStream cs).consumedLength = s.consumedLength := rfl
@[simp] theorem State.withStream_currentCommand (cs : List Cycle) :
    (s.withStream cs).currentCommand = s.currentCommand := rfl
@[simp] theorem State.withStream_packetStartTime (cs : List Cycle) :
    (s.withStream cs).packetStartTime = s.packetStartTime := rfl
@[simp] theorem State.withStream_out (cs : List Cycle) : (s.withStream cs).out = s.out := rfl
@[simp] theorem State.withStream_inp (cs : List Cycle) : (s.withStream cs).inp = s.inp := rfl
@[simp] theorem State.withStream_resetSeen (cs : List Cycle) : (s.withStream cs).resetSeen = s.resetSeen := rfl
@[simp] theorem State.withStream_pending (cs : List Cycle) : (s.withStream cs).pending = cs := rfl

/-! ### firstOfTwo -/

@[simp] theorem firstOfTwo_state : (firstOfTwo s).state = s.state := rfl
@[simp] theorem firstOfTwo_accBytes : (firstOfTwo s).accBytes = [s.inp.byte] := rfl
@[simp] theorem firstOfTwo_accCount : (firstOfTwo s).accCount = 1#3 := rfl
@[simp] theorem firstOfTwo_headerMatchIndex : (firstOfTwo s).headerMatchIndex = s.headerMatchIndex := rfl
@[simp] theorem firstOfTwo_fieldValue : (firstOfTwo s).fieldValue = s.fieldValue := rfl
@[simp] theorem firstOfTwo_declaredLength : (firstOfTwo s).declaredLength = s.declaredLength := rfl
@[simp] theorem firstOfTwo_consumedLength : (firstOfTwo s).consumedLength = s.consumedLength := rfl
@[simp] theorem firstOfTwo_currentCommand : (firstOfTwo s).currentCommand = s.currentCommand := rfl
@[simp] theorem firstOfTwo_packetStartTime : (firstOfTwo s).packetStartTime = s.inp.tStart := rfl
@[simp] theorem firstOfTwo_out : (firstOfTwo s).out = s.out := rfl
@[simp] theorem firstOfTwo_inp : (firstOfTwo s).inp = s.inp := rfl
@[simp] theorem firstOfTwo_resetSeen : (firstOfTwo s).resetSeen = s.resetSeen := rfl
@[simp] theorem firstOfTwo_pending : (firstOfTwo s).pending = s.pending := rfl

/-! ### frameErrorResult -/

@[simp] theorem frameErrorResult_state : (frameErrorResult s).state = .header := rfl
@[simp] theorem frameErrorResult_accBytes : (frameErrorResult s).accBytes = [] := rfl
@[simp] theorem frameErrorResult_accCount : (frameErrorResult s).accCount = 0#3 := rfl
@[simp] theorem frameErrorResult_headerMatchIndex : (frameErrorResult s).headerMatchIndex = 0#3 := rfl
@[simp] theorem frameErrorResult_fieldValue : (frameErrorResult s).fieldValue = s.fieldValue := rfl
@[simp] theorem frameErrorResult_declaredLength : (frameErrorResult s).declaredLength = 0#16 := rfl
@[simp] theorem frameErrorResult_consumedLength : (frameErrorResult s).consumedLength = 0#17 := rfl
@[simp] theorem frameErrorResult_currentCommand : (frameErrorResult s).currentCommand = s.currentCommand := rfl
@[simp] theorem frameErrorResult_packetStartTime : (frameErrorResult s).packetStartTime = s.packetStartTime := rfl
@[simp] theorem frameErrorResult_out :
    (frameErrorResult s).out = some { kind := .frameError, tStart := s.inp.tStart, tEnd := s.inp.tEnd, payload := .empty } := rfl
@[simp] theorem frameErrorResult_inp : (frameErrorResult s).inp = s.inp := rfl
@[simp] theorem frameErrorResult_resetSeen : (frameErrorResult s).resetSeen = s.resetSeen := rfl
@[simp] theorem frameErrorResult_pending : (frameErrorResult s).pending = s.pending := rfl

/-! ### registers -/

@[simp] theorem State.registers_state : s.registers.state = s.state := rfl
@[simp] theorem State.registers_accBytes : s.registers.accBytes = s.accBytes := rfl
@[simp] theorem State.registers_accCount : s.registers.accCount = s.accCount := rfl
@[simp] theorem State.registers_headerMatchIndex : s.registers.headerMatchIndex = s.headerMatchIndex := rfl
@[simp] theorem State.registers_fieldValue : s.registers.fieldValue = s.fieldValue := rfl
@[simp] theorem State.registers_declaredLength : s.registers.declaredLength = s.declaredLength := rfl
@[simp] theorem State.registers_consumedLength : s.registers.consumedLength = s.consumedLength := rfl
@[simp] theorem State.registers_currentCommand : s.registers.currentCommand = s.currentCommand := rfl
@[simp] theorem State.registers_packetStartTime : s.registers.packetStartTime = s.packetStartTime := rfl
@[simp] theorem State.registers_out : s.registers.out = none := rfl
@[simp] theorem State.registers_inp : s.registers.inp = Cycle.idle := rfl
@[simp] theorem State.registers_resetSeen : s.registers.resetSeen = s.resetSeen := rfl
@[simp] theorem State.registers_pending : s.registers.pending = s.pending := rfl

end

end Sys2Proof.Machine
end

