-- ==== Sys2Proof/Laws/Ops.lean ====
section
/-! SUPPORT. One lemma for each shared operation that says once everything it can do; later proofs cite these instead of
unfolding the operation. -/

namespace Sys2Proof.Machine

/-! ### The little-endian value of a field (R63) -/

@[simp] theorem littleEndian_nil : littleEndian [] = 0 := rfl

@[simp] theorem littleEndian_cons (b : Byte) (bs : List Byte) :
    littleEndian (b :: bs) = b.toNat + 256 * littleEndian bs := rfl

theorem ofNat_littleEndian_one (b : Byte) : BitVec.ofNat 32 (littleEndian [b]) = b.setWidth 32 := by
  apply BitVec.eq_of_toNat_eq
  have := b.isLt
  simp

theorem toNat_append_bytes (hi lo : Byte) : (hi ++ lo : BitVec 16).toNat = lo.toNat + 256 * hi.toNat := by
  have := lo.isLt
  rw [BitVec.toNat_append, Nat.shiftLeft_eq, Nat.mul_comm, ← Nat.two_pow_add_eq_or_of_lt this]
  omega

theorem ofNat_littleEndian_two (b0 b1 : Byte) :
    BitVec.ofNat 32 (littleEndian [b0, b1]) = (b1 ++ b0 : BitVec 16).setWidth 32 := by
  apply BitVec.eq_of_toNat_eq
  have h0 := b0.isLt
  have h1 := b1.isLt
  rw [BitVec.toNat_setWidth, toNat_append_bytes]
  simp

theorem setWidth_setWidth_byte (b : Byte) : (b.setWidth 32).setWidth 16 = b.setWidth 16 := by
  apply BitVec.eq_of_toNat_eq
  have := b.isLt
  simp only [BitVec.toNat_setWidth]
  omega

theorem setWidth_setWidth_two (v : BitVec 16) : (v.setWidth 32).setWidth 16 = v := by
  apply BitVec.eq_of_toNat_eq
  have := v.isLt
  simp only [BitVec.toNat_setWidth]
  omega

/-! ### The accumulator (R81) -/

/-- Everything `accumulate` can do: complete the field, or hold it. -/
theorem accumulate_cases (b : Byte) (ts : Config.Time) (n : Int) (s : State) :
    (n ≤ ((s.accCount.toNat + 1 : Nat) : Int) ∧
      accumulate b ts n s = (true, ((s.beginField ts).appendByte b).completeField (s.accCount.toNat + 1))) ∨
    (((s.accCount.toNat + 1 : Nat) : Int) < n ∧
      accumulate b ts n s = (false, ((s.beginField ts).appendByte b).holdField (s.accCount.toNat + 1))) := by
  by_cases h : n ≤ ((s.accCount.toNat + 1 : Nat) : Int)
  · exact .inl ⟨h, by simp only [accumulate, fieldComplete, h, decide_true, if_true]⟩
  · exact .inr ⟨by omega, by simp only [accumulate, fieldComplete, h, decide_false, Bool.false_eq_true, if_false]⟩

theorem beginField_first {s : State} (h : s.accCount = 0#3) (ts : Config.Time) :
    s.beginField ts = { s with accBytes := [], packetStartTime := ts } := by
  simp only [State.beginField, h, if_true]

theorem beginField_later {s : State} (h : s.accCount ≠ 0#3) (ts : Config.Time) : s.beginField ts = s := by
  simp only [State.beginField, h, if_false]

section
variable (s : State) (ts : Config.Time)

@[simp] theorem State.beginField_state : (s.beginField ts).state = s.state := by
  unfold State.beginField; split <;> rfl
@[simp] theorem State.beginField_accCount : (s.beginField ts).accCount = s.accCount := by
  unfold State.beginField; split <;> rfl
@[simp] theorem State.beginField_headerMatchIndex : (s.beginField ts).headerMatchIndex = s.headerMatchIndex := by
  unfold State.beginField; split <;> rfl
@[simp] theorem State.beginField_fieldValue : (s.beginField ts).fieldValue = s.fieldValue := by
  unfold State.beginField; split <;> rfl
@[simp] theorem State.beginField_declaredLength : (s.beginField ts).declaredLength = s.declaredLength := by
  unfold State.beginField; split <;> rfl
@[simp] theorem State.beginField_consumedLength : (s.beginField ts).consumedLength = s.consumedLength := by
  unfold State.beginField; split <;> rfl
@[simp] theorem State.beginField_currentCommand : (s.beginField ts).currentCommand = s.currentCommand := by
  unfold State.beginField; split <;> rfl
@[simp] theorem State.beginField_out : (s.beginField ts).out = s.out := by
  unfold State.beginField; split <;> rfl
@[simp] theorem State.beginField_inp : (s.beginField ts).inp = s.inp := by
  unfold State.beginField; split <;> rfl
@[simp] theorem State.beginField_resetSeen : (s.beginField ts).resetSeen = s.resetSeen := by
  unfold State.beginField; split <;> rfl
@[simp] theorem State.beginField_pending : (s.beginField ts).pending = s.pending := by
  unfold State.beginField; split <;> rfl

end

/-- A 1-byte field completes on its byte (R82, R83). -/
theorem accumulate_single {s : State} (h : s.accCount = 0#3) {n : Int} (hn : n ≤ 1) (b : Byte) (ts : Config.Time) :
    accumulate b ts n s = (true, { s with
      accBytes := [b]
      packetStartTime := ts
      consumedLength := if s.declaredLength = 0#16 then s.consumedLength else s.consumedLength + 1#17
      fieldValue := b.setWidth 32
      accCount := 0#3 }) := by
  rcases accumulate_cases b ts n s with ⟨_, e⟩ | ⟨g, _⟩
  · rw [e, beginField_first h]
    simp only [h, State.appendByte, State.completeField, List.nil_append, ofNat_littleEndian_one]
    rfl
  · simp [h] at g; omega

/-- The first byte of a 2-byte field is held (R81). -/
theorem accumulate_first {s : State} (h : s.accCount = 0#3) {n : Int} (hn : 2 ≤ n) (b : Byte) (ts : Config.Time) :
    accumulate b ts n s = (false, { s with accBytes := [b], packetStartTime := ts, accCount := 1#3 }) := by
  rcases accumulate_cases b ts n s with ⟨g, _⟩ | ⟨_, e⟩
  · simp [h] at g; omega
  · rw [e, beginField_first h]
    simp only [h, State.appendByte, State.holdField, List.nil_append]
    rfl

/-- The second byte of a 2-byte field completes it (R81). -/
theorem accumulate_second {s : State} (h : s.accCount = 1#3) {b0 : Byte} (hb : s.accBytes = [b0]) {n : Int} (hn : n ≤ 2)
    (b : Byte) (ts : Config.Time) :
    accumulate b ts n s = (true, { s with
      accBytes := [b0, b]
      consumedLength := if s.declaredLength = 0#16 then s.consumedLength else s.consumedLength + 2#17
      fieldValue := (b ++ b0 : BitVec 16).setWidth 32
      accCount := 0#3 }) := by
  rcases accumulate_cases b ts n s with ⟨_, e⟩ | ⟨g, _⟩
  · rw [e, beginField_later (by rw [h]; decide)]
    simp only [h, hb, State.appendByte, State.completeField, List.singleton_append, ofNat_littleEndian_two]
    rfl
  · simp [h] at g; omega

/-! ### Cycles -/

theorem takeCycle_cons {s : State} {c : Cycle} {rest : List Cycle} (h : s.pending = c :: rest) :
    s.takeCycle = s.receive c rest := by
  simp only [State.takeCycle, h]; rfl

theorem overrun_iff (s : State) :
    s.overrun = true ↔ s.declaredLength ≠ 0#16 ∧ s.declaredLength.toNat ≤ s.consumedLength.toNat := by
  simp [State.overrun]

theorem receive_overrun (c : Cycle) (rest : List Cycle) (s : State) : (s.receive c rest).overrun = s.overrun := rfl

theorem State.TakesByte.overrun {c : Cycle} {rest : List Cycle} {s : State} (h : s.TakesByte c rest) :
    s.overrun = false := by
  rcases h.running with h | h
  · simp [State.overrun, h]
  · have : ¬ s.declaredLength.toNat ≤ s.consumedLength.toNat := by omega
    simp [State.overrun, this]

theorem State.Overruns.overrun {c : Cycle} {rest : List Cycle} {s : State} (h : s.Overruns c rest) :
    s.overrun = true := (overrun_iff s).2 ⟨h.declared, h.reached⟩

/-- A byte cycle after a reset takes the byte or overruns. -/
theorem takesByte_or_overruns {c : Cycle} {rest : List Cycle} {s : State} (hn : s.pending = c :: rest)
    (hb : c.isByte = true) (hr : s.resetSeen = true) : s.TakesByte c rest ∨ s.Overruns c rest := by
  by_cases h0 : s.declaredLength = 0#16
  · exact .inl ⟨hn, hb, hr, .inl h0⟩
  · by_cases h1 : s.declaredLength.toNat ≤ s.consumedLength.toNat
    · exact .inr ⟨hn, hb, hr, h0, h1⟩
    · exact .inl ⟨hn, hb, hr, .inr (by omega)⟩

theorem isByte_iff (c : Cycle) : c.isByte = true ↔ c.valid = true ∧ c.rst = false := by
  simp [Cycle.isByte]

/-- A step that takes a byte is the feed of that byte. -/
theorem step_feed {s : State} {c : Cycle} {rest : List Cycle} (hn : s.pending = c :: rest) (hb : c.isByte = true)
    (hr : s.resetSeen = true) : step s = feed (s.receive c rest) := by
  obtain ⟨hv, hrst⟩ := (isByte_iff c).1 hb
  simp only [step, takeCycle_cons hn, runCycle, State.receive_inp, State.receive_resetSeen, hv, hrst, hr, if_true,
    Bool.false_eq_true, if_false]

/-- Everything a step can do: the stream has ended, reset, idle, refuse, take the error, or run a state rule. -/
theorem step_cases (s : State) :
    (s.pending = [] ∧ step s = .next s.takeCycle) ∨
    ∃ (c : Cycle) (rest : List Cycle), s.pending = c :: rest ∧
      ((c.rst = true ∧ step s = .next (s.receive c rest).resetBlock) ∨
       (c.rst = false ∧ c.valid = false ∧ step s = .next (s.receive c rest)) ∨
       (c.isByte = true ∧ s.resetSeen = false ∧ step s = .refused .beforeFirstReset) ∨
       (s.Overruns c rest ∧ step s = .next (s.receive c rest).overrunGuard) ∨
       (s.TakesByte c rest ∧ step s = stateRule (s.receive c rest))) := by
  rcases hp : s.pending with _ | ⟨c, rest⟩
  · refine .inl ⟨rfl, ?_⟩
    simp [step, runCycle, State.takeCycle, hp]
  · refine .inr ⟨c, rest, rfl, ?_⟩
    by_cases hrst : c.rst = true
    · exact .inl ⟨hrst, by simp [step, runCycle, takeCycle_cons hp, hrst]⟩
    · by_cases hv : c.valid = true
      · have hb : c.isByte = true := (isByte_iff c).2 ⟨hv, by simpa using hrst⟩
        by_cases hr : s.resetSeen = true
        · rcases takesByte_or_overruns hp hb hr with h | h
          · refine .inr (.inr (.inr (.inr ⟨h, ?_⟩)))
            rw [step_feed hp hb hr, feed, receive_overrun, h.overrun]; rfl
          · refine .inr (.inr (.inr (.inl ⟨h, ?_⟩)))
            rw [step_feed hp hb hr, feed, receive_overrun, h.overrun]; rfl
        · refine .inr (.inr (.inl ⟨hb, by simpa using hr, ?_⟩))
          simp [step, runCycle, takeCycle_cons hp, hrst, hv, hr]
      · exact .inr (.inl ⟨by simpa using hrst, by simpa using hv, by
          simp [step, runCycle, takeCycle_cons hp, hrst, hv]⟩)

/-- A byte that does not overrun runs the state rule. -/
theorem step_takes {s : State} {c : Cycle} {rest : List Cycle} (h : s.TakesByte c rest) :
    step s = stateRule (s.receive c rest) := by
  rw [step_feed h.next h.byte h.reset, feed, receive_overrun, h.overrun]; rfl

/-- A byte with the guard's condition takes the error. -/
theorem step_overruns {s : State} {c : Cycle} {rest : List Cycle} (h : s.Overruns c rest) :
    step s = .next (s.receive c rest).overrunGuard := by
  rw [step_feed h.next h.byte h.reset, feed, receive_overrun, h.overrun]; rfl

/-! ### Runs -/

@[simp] theorem collect_zero (s : State) : collect 0 s = some ([], s) := rfl

theorem collect_next {s t : State} (h : step s = .next t) (k : Nat) :
    collect (k + 1) s = (collect k t).map fun r => (t.out.toList ++ r.1, r.2) := by
  simp only [collect, h]

/-- A run in two parts. -/
theorem collect_add (m n : Nat) (s : State) :
    collect (m + n) s = (collect m s).bind fun r => (collect n r.2).map fun q => (r.1 ++ q.1, q.2) := by
  induction m generalizing s with
  | zero => simp
  | succ m ih =>
    rw [Nat.add_right_comm]
    rcases h : step s with t | r | r
    · rw [collect_next h, collect_next h, ih]
      cases collect m t <;> simp [Function.comp_def]
    · simp [collect, h]
    · simp [collect, h]

/-! ### The meanings of the command codes -/

/-- Every instruction runs the COMMAND step with its code and its variant. -/
theorem exec_eq_commandStep (i : Instr) (s : State) : exec i s = .next (commandStep i.code i.command s) := by
  cases i <;> rfl

/-- The COMMAND step where no field is in progress (R32). -/
theorem commandStep_eq {s : State} (h : s.accCount = 0#3) (code : Byte) (cmd : Command) :
    commandStep code cmd s = commandResult code cmd (nextAfterCommand cmd) s := by
  unfold commandStep
  rw [accumulate_single h (by decide)]
  simp only [State.emitField, State.emit, State.goto, State.setCommand, commandResult]
  cases s; simp_all

end Sys2Proof.Machine
end

