-- ==== Sys2Proof/Laws/PerInstr.lean ====
section
/-! SUPPORT. Statements about every instruction as syntax, one lemma per constructor. Family `CodeNamesCommand`: the code an
instruction is encoded with decodes to the Command variant the instruction stands for (R68). -/

namespace Sys2Proof.Laws.CodeNamesCommand

def Statement (i : Instr) : Prop := i.wellFormed = true → decodeCommand i.code = i.command

theorem ping : Statement .ping := fun _ => by decide
theorem read : Statement .read := fun _ => by decide
theorem write : Statement .write := fun _ => by decide
theorem regWrite : Statement .regWrite := fun _ => by decide
theorem action : Statement .action := fun _ => by decide
theorem factoryReset : Statement .factoryReset := fun _ => by decide
theorem reboot : Statement .reboot := fun _ => by decide
theorem clear : Statement .clear := fun _ => by decide
theorem status : Statement .status := fun _ => by decide
theorem syncRead : Statement .syncRead := fun _ => by decide
theorem syncWrite : Statement .syncWrite := fun _ => by decide
theorem bulkRead : Statement .bulkRead := fun _ => by decide
theorem bulkWrite : Statement .bulkWrite := fun _ => by decide
theorem unknown (code : Byte) : Statement (.unknown code) := by
  revert code
  unfold Statement
  decide

end Sys2Proof.Laws.CodeNamesCommand
end

