-- ==== Sys2Proof/Tests/Slice0.lean ====
section
/-! SUPPORT. The row's own tests. Expected results come from the spec: the encodings of 30_encoding.md R68, the worked examples
that stand with the rules, and the tables of 95_test_vectors.md (V1, V2, P2, P4, P5). The second part gives, for every
statement with hypotheses, a concrete state that meets them, one for each clause. -/

open Sys2Proof Sys2Proof.Machine

namespace Sys2Proof.Tests

/-! ## Helpers -/

/-- A cycle that presents byte `k` of a stream, at the times R75 gives it. `Time` is left open, so the tests on times hold
for every map `time` of R75's numbers to times. -/
def byteOf (time : Nat → Config.Time) (k : Nat) (b : Byte) : Cycle :=
  { rst := false, valid := true, byte := b, tStart := time (10 * k), tEnd := time (10 * k + 8) }

/-- Byte `k` where no test looks at its times. -/
def byteAt (k : Nat) (b : Byte) : Cycle := byteOf (fun _ => Config.resetTime) k b

/-- A cycle with reset asserted and a byte presented too. -/
def resetCycle : Cycle := { byteAt 0 0xFF#8 with rst := true }

/-- A stream of bytes, the first one at position `k`. -/
def streamOf (time : Nat → Config.Time) : Nat → List Byte → List Cycle
  | _, [] => []
  | k, b :: bs => byteOf time k b :: streamOf time (k + 1) bs

/-- The same where no test looks at the times. -/
def stream (k : Nat) (bs : List Byte) : List Cycle := streamOf (fun _ => Config.resetTime) k bs

/-- A state with the given packet state, lengths and stream, and no field in progress. -/
def at_ (p : PacketState) (declared : BitVec 16) (consumed : BitVec 17) (cs : List Cycle) : State :=
  { State.reset with state := p, declaredLength := declared, consumedLength := consumed, pending := cs }

/-- HEADER after `k` matched bytes. -/
def header (k : BitVec 3) (cs : List Cycle) : State :=
  { State.reset with headerMatchIndex := k, accCount := k, accBytes := headerPattern.take k.toNat, pending := cs }

/-- The forced error condition of R30. -/
def forced (cs : List Cycle) : State :=
  { header 1#3 cs with declaredLength := 1#16, consumedLength := 1#17 }

/-- The second byte of a value chunk is awaited. -/
def midValue (cs : List Cycle) : State :=
  { at_ .value 7#16 3#17 cs with accCount := 1#3, accBytes := [0x64#8] }

/-- What a test looks at: the packet state, the element and the two length registers of the next state. -/
def seen : Host.Outcome State Fault Refusal → Option (PacketState × Option Element × BitVec 16 × BitVec 17)
  | .next s => some (s.state, s.out, s.declaredLength, s.consumedLength)
  | .fault _ => none
  | .refused _ => none

/-- What a command byte at stream position 7 gives (42_command.md, worked examples), with the declared length `len`. -/
def commandSeen (time : Nat → Config.Time) (i : Instr) (len : BitVec 16) :
    Option (PacketState × Option Element × BitVec 16 × BitVec 17) :=
  seen (exec i ((at_ .command len 0#17 []).receive (byteOf time 7 i.code) []))

/-- What the worked examples say of it: the successor, the element over `[70,78]` and the lengths. -/
def commandExpected (time : Nat → Config.Time) (next : PacketState) (cmd : Command) (code len : BitVec 16)
    (consumed : BitVec 17) : Option (PacketState × Option Element × BitVec 16 × BitVec 17) :=
  some (next, some { kind := .command cmd, tStart := time 70, tEnd := time 78, payload := .int code }, len, consumed)

/-! ## Well-formedness: the one check refuses a named code in the fallback row (R69) -/

theorem test_wf_unknown_ping_code : (Instr.unknown 0x01#8).wellFormed = false := by decide
theorem test_wf_unknown_bulkWrite_code : (Instr.unknown 0x93#8).wellFormed = false := by decide
theorem test_wf_unknown_free_code : (Instr.unknown 0x07#8).wellFormed = true := by decide
theorem test_wf_named : Instr.status.wellFormed = true := by decide

/-! ## Decoding: the words of opcode_table.json, bit by bit (R68, R71) -/

theorem test_decode_ping : decode [0b00000001#8] = .instr .ping [] := by decide
theorem test_decode_read : decode [0b00000010#8] = .instr .read [] := by decide
theorem test_decode_write : decode [0b00000011#8] = .instr .write [] := by decide
theorem test_decode_regWrite : decode [0b00000100#8] = .instr .regWrite [] := by decide
theorem test_decode_action : decode [0b00000101#8] = .instr .action [] := by decide
theorem test_decode_factoryReset : decode [0b00000110#8] = .instr .factoryReset [] := by decide
theorem test_decode_reboot : decode [0b00001000#8] = .instr .reboot [] := by decide
theorem test_decode_clear : decode [0b00010000#8] = .instr .clear [] := by decide
theorem test_decode_status : decode [0b01010101#8] = .instr .status [] := by decide
theorem test_decode_syncRead : decode [0b10000010#8] = .instr .syncRead [] := by decide
theorem test_decode_syncWrite : decode [0b10000011#8] = .instr .syncWrite [] := by decide
theorem test_decode_bulkRead : decode [0b10010010#8] = .instr .bulkRead [] := by decide
theorem test_decode_bulkWrite : decode [0b10010011#8] = .instr .bulkWrite [] := by decide
theorem test_decode_unknown_zero : decode [0b00000000#8] = .instr (.unknown 0x00#8) [] := by decide
theorem test_decode_unknown_seven : decode [0b00000111#8] = .instr (.unknown 0x07#8) [] := by decide
theorem test_decode_empty : decode [] = .rejected .noByte := by decide
theorem test_table_word_clear : decodeTableWord 8 0x10 = some .clear := by decide
theorem test_table_word_unknown : decodeTableWord 8 0x20 = some (.unknown 0x20#8) := by decide
theorem test_fetch_word_runs_status : seen (step (State.reset.withFetchWord 8 0x55)) =
    some (.errorCode, some { kind := .command .status, tStart := Config.resetTime, tEnd := Config.resetTime, payload := .int 0x55#16 }, 0#16, 0#17) := by
  decide

/-! ## The command codes: the worked example of each rule (R107 to R120) -/

variable (time : Nat → Config.Time)

theorem test_ping :
    commandSeen time .ping 3#16 = commandExpected time .checksum .ping 0x01#16 3#16 1#17 := rfl
theorem test_factoryReset :
    commandSeen time .factoryReset 3#16 = commandExpected time .checksum .factoryReset 0x06#16 3#16 1#17 := rfl
theorem test_reboot :
    commandSeen time .reboot 3#16 = commandExpected time .checksum .reboot 0x08#16 3#16 1#17 := rfl
theorem test_clear :
    commandSeen time .clear 3#16 = commandExpected time .checksum .clear 0x10#16 3#16 1#17 := rfl
theorem test_action :
    commandSeen time .action 3#16 = commandExpected time .ramAddress .action 0x05#16 3#16 1#17 := rfl
theorem test_read :
    commandSeen time .read 7#16 = commandExpected time .ramAddress .read 0x02#16 7#16 1#17 := rfl
theorem test_write :
    commandSeen time .write 7#16 = commandExpected time .ramAddress .write 0x03#16 7#16 1#17 := rfl
theorem test_regWrite :
    commandSeen time .regWrite 7#16 = commandExpected time .ramAddress .regWrite 0x04#16 7#16 1#17 := rfl
theorem test_syncRead :
    commandSeen time .syncRead 9#16 = commandExpected time .ramAddress .syncRead 0x82#16 9#16 1#17 := rfl
theorem test_syncWrite :
    commandSeen time .syncWrite 10#16 = commandExpected time .ramAddress .syncWrite 0x83#16 10#16 1#17 := rfl
theorem test_bulkRead :
    commandSeen time .bulkRead 8#16 = commandExpected time .ramAddress .bulkRead 0x92#16 8#16 1#17 := rfl
theorem test_bulkWrite :
    commandSeen time .bulkWrite 10#16 = commandExpected time .ramAddress .bulkWrite 0x93#16 10#16 1#17 := rfl
theorem test_status :
    commandSeen time .status 4#16 = commandExpected time .errorCode .status 0x55#16 4#16 1#17 := rfl
theorem test_unknown :
    commandSeen time (.unknown 0x20#8) 5#16 = commandExpected time .value .unknown 0x20#16 5#16 1#17 := rfl
/-- P5, row 7: with a declared length of 0 nothing is counted. -/
theorem test_write_length_zero :
    commandSeen time .write 0#16 = commandExpected time .ramAddress .write 0x03#16 0#16 0#17 := rfl

/-! ## The accumulator: the worked examples of R88 -/

theorem test_accumulate_first_byte : accumulate 0x64#8 (time 100) 2 (at_ .value 7#16 3#17 []) =
    (false, { at_ .value 7#16 3#17 [] with accBytes := [0x64#8], accCount := 1#3, packetStartTime := time 100 }) := rfl
theorem test_accumulate_second_byte : accumulate 0x00#8 (time 110) 2 { midValue [] with packetStartTime := time 100 } =
    (true, { midValue [] with
      packetStartTime := time 100, accBytes := [0x64#8, 0x00#8], consumedLength := 5#17, fieldValue := 0x0064#32, accCount := 0#3 }) := rfl
theorem test_accumulate_required_negative : (accumulate 0x64#8 (time 100) (-2) (at_ .value 0#16 0#17 [])).1 = true := rfl

/-! ## The state rules, one step each: the worked examples of 41_framing.md and 43_payload.md -/

/-- R95: the fourth byte of `FF FF FD 00`. -/
theorem test_header_completes : seen (step { header 3#3 [byteOf time 3 0x00#8] with packetStartTime := time 0 }) =
    some (.address, some { kind := .header, tStart := time 0, tEnd := time 38, payload := .empty }, 0#16, 0#17) := rfl
/-- R96: `00` where `FD` is expected arms the forced error condition. -/
theorem test_header_breaks : seen (step (header 2#3 [byteOf time 2 0x00#8])) = some (.header, none, 1#16, 1#17) := rfl
/-- R96: the byte after it draws the FrameError. -/
theorem test_forced_error : seen (step (forced [byteOf time 3 0xAA#8])) =
    some (.header, some { kind := .frameError, tStart := time 30, tEnd := time 38, payload := .empty }, 0#16, 0#17) := rfl
/-- R98. -/
theorem test_address : seen (step (at_ .address 0#16 0#17 [byteOf time 4 0x01#8])) =
    some (.length, some { kind := .address, tStart := time 40, tEnd := time 48, payload := .int 1#16 }, 0#16, 0#17) := rfl
/-- R99: the second byte of `03 00`. -/
theorem test_length :
    seen (step { at_ .length 0#16 0#17 [byteOf time 6 0x00#8] with
      accCount := 1#3, accBytes := [0x03#8], packetStartTime := time 50 }) =
    some (.command, some { kind := .length, tStart := time 50, tEnd := time 68, payload := .int 3#16 }, 3#16, 0#17) := rfl
/-- R126: the second byte of `1E 00`. -/
theorem test_ram_address :
    seen (step { at_ .ramAddress 7#16 1#17 [byteOf time 9 0x00#8] with
      accCount := 1#3, accBytes := [0x1E#8], packetStartTime := time 80 }) =
    some (.value, some { kind := .ramAddress, tStart := time 80, tEnd := time 98, payload := .int 0x001E#16 }, 7#16, 3#17) := rfl
/-- R128: with a declared length of 4 only the checksum remains. -/
theorem test_error_code : seen (step (at_ .errorCode 4#16 1#17 [byteOf time 8 0x00#8])) =
    some (.checksum, some { kind := .errorCode, tStart := time 80, tEnd := time 88, payload := .int 0#16 }, 4#16, 2#17) := rfl
/-- R131: the second byte of the chunk `64 00`. -/
theorem test_value_chunk : seen (step { midValue [byteOf time 11 0x00#8] with packetStartTime := time 100 }) =
    some (.checksum, some { kind := .value, tStart := time 100, tEnd := time 118, payload := .int 0x0064#16 }, 7#16, 5#17) := rfl
/-- V2, row 10: with no value byte left the chunk has one byte, and VALUE is not left. -/
theorem test_value_no_room : seen (step (at_ .value 5#16 3#17 [byteOf time 10 0x64#8])) =
    some (.value, some { kind := .value, tStart := time 100, tEnd := time 108, payload := .int 0x64#16 }, 5#16, 4#17) := rfl
/-- R134 and P2, row 13: wire bytes `C0 C1` are reported as `C1, C0`. -/
theorem test_checksum :
    seen (step { at_ .checksum 7#16 5#17 [byteOf time 13 0xC1#8] with
      accCount := 1#3, accBytes := [0xC0#8], packetStartTime := time 120 }) =
    some (.header, some { kind := .checksum, tStart := time 120, tEnd := time 138, payload := .bytes 0xC1#8 0xC0#8 }, 0#16, 0#17) := rfl
/-- P5, row 20: reset in the zero-length lock-up. -/
theorem test_reset_in_value : seen (step (at_ .value 0#16 0#17 [resetCycle])) = some (.header, none, 0#16, 0#17) := rfl
/-- R43: the signals of `Ping(0x01)[70,78]`. -/
theorem test_signals_ping : (Element.signals { kind := .command .ping, tStart := time 70, tEnd := time 78, payload := .int 1#16 }) =
    { kind := 3#4, cmd := 1#4, tStart := time 70, tEnd := time 78, ptag := 1#2, int := 1#16, b0 := 0#8, b1 := 0#8 } := rfl
/-- R15: the codes of the packet states. -/
theorem test_state_codes : PacketState.code .header = 0#3 ∧ PacketState.code .checksum = 7#3 := by decide

/-! ## Witnesses: the hypotheses of each statement, met by a concrete state -/

/-- The invariant says nothing of the stream. -/
theorem inv_withStream {s : State} (cs : List Cycle) (h : s.Inv) : ({ s with pending := cs } : State).Inv := by
  cases h; constructor <;> assumption

theorem inv_header_0 (cs : List Cycle) : (header 0#3 cs).Inv :=
  inv_withStream (s := (header 0#3 [])) cs (by constructor <;> decide)
theorem inv_header_1 (cs : List Cycle) : (header 1#3 cs).Inv :=
  inv_withStream (s := (header 1#3 [])) cs (by constructor <;> decide)
theorem inv_header_2 (cs : List Cycle) : (header 2#3 cs).Inv :=
  inv_withStream (s := (header 2#3 [])) cs (by constructor <;> decide)
theorem inv_header_3 (cs : List Cycle) : (header 3#3 cs).Inv :=
  inv_withStream (s := (header 3#3 [])) cs (by constructor <;> decide)
theorem inv_length (cs : List Cycle) : (at_ .length 0#16 0#17 cs).Inv :=
  inv_withStream (s := (at_ .length 0#16 0#17 [])) cs (by constructor <;> decide)
theorem inv_command_0 (cs : List Cycle) : (at_ .command 0#16 0#17 cs).Inv :=
  inv_withStream (s := (at_ .command 0#16 0#17 [])) cs (by constructor <;> decide)
theorem inv_command_1 (cs : List Cycle) : (at_ .command 1#16 0#17 cs).Inv :=
  inv_withStream (s := (at_ .command 1#16 0#17 [])) cs (by constructor <;> decide)
theorem inv_command_2 (cs : List Cycle) : (at_ .command 2#16 0#17 cs).Inv :=
  inv_withStream (s := (at_ .command 2#16 0#17 [])) cs (by constructor <;> decide)
theorem inv_command_3 (cs : List Cycle) : (at_ .command 3#16 0#17 cs).Inv :=
  inv_withStream (s := (at_ .command 3#16 0#17 [])) cs (by constructor <;> decide)
theorem inv_ramAddress_0 (cs : List Cycle) : (at_ .ramAddress 0#16 0#17 cs).Inv :=
  inv_withStream (s := (at_ .ramAddress 0#16 0#17 [])) cs (by constructor <;> decide)
theorem inv_ramAddress_1 (cs : List Cycle) : (at_ .ramAddress 1#16 1#17 cs).Inv :=
  inv_withStream (s := (at_ .ramAddress 1#16 1#17 [])) cs (by constructor <;> decide)
theorem inv_ramAddress_2 (cs : List Cycle) : (at_ .ramAddress 2#16 1#17 cs).Inv :=
  inv_withStream (s := (at_ .ramAddress 2#16 1#17 [])) cs (by constructor <;> decide)
theorem inv_errorCode_0 (cs : List Cycle) : (at_ .errorCode 0#16 0#17 cs).Inv :=
  inv_withStream (s := (at_ .errorCode 0#16 0#17 [])) cs (by constructor <;> decide)
theorem inv_errorCode_1 (cs : List Cycle) : (at_ .errorCode 1#16 1#17 cs).Inv :=
  inv_withStream (s := (at_ .errorCode 1#16 1#17 [])) cs (by constructor <;> decide)
theorem inv_errorCode_2 (cs : List Cycle) : (at_ .errorCode 2#16 1#17 cs).Inv :=
  inv_withStream (s := (at_ .errorCode 2#16 1#17 [])) cs (by constructor <;> decide)
theorem inv_errorCode_4 (cs : List Cycle) : (at_ .errorCode 4#16 1#17 cs).Inv :=
  inv_withStream (s := (at_ .errorCode 4#16 1#17 [])) cs (by constructor <;> decide)
theorem inv_value_7_3 (cs : List Cycle) : (at_ .value 7#16 3#17 cs).Inv :=
  inv_withStream (s := (at_ .value 7#16 3#17 [])) cs (by constructor <;> decide)
theorem inv_value_6_3 (cs : List Cycle) : (at_ .value 6#16 3#17 cs).Inv :=
  inv_withStream (s := (at_ .value 6#16 3#17 [])) cs (by constructor <;> decide)
theorem inv_value_5_3 (cs : List Cycle) : (at_ .value 5#16 3#17 cs).Inv :=
  inv_withStream (s := (at_ .value 5#16 3#17 [])) cs (by constructor <;> decide)
theorem inv_value_2_3 (cs : List Cycle) : (at_ .value 2#16 3#17 cs).Inv :=
  inv_withStream (s := (at_ .value 2#16 3#17 [])) cs (by constructor <;> decide)
theorem inv_value_0_0 (cs : List Cycle) : (at_ .value 0#16 0#17 cs).Inv :=
  inv_withStream (s := (at_ .value 0#16 0#17 [])) cs (by constructor <;> decide)
theorem inv_midValue (cs : List Cycle) : (midValue cs).Inv :=
  inv_withStream (s := (midValue [])) cs (by constructor <;> decide)
theorem inv_midChecksum (cs : List Cycle) :
    ({ at_ .checksum 7#16 5#17 cs with accCount := 1#3, accBytes := [0xC0#8] } : State).Inv :=
  inv_withStream
    (s := { at_ .checksum 7#16 5#17 [] with accCount := 1#3, accBytes := [0xC0#8] }) cs
    (by constructor <;> decide)

theorem witness_decodeEncodeAgree : (Instr.unknown 0x07#8).wellFormed = true ∧ Instr.bulkWrite.wellFormed = true := by decide
theorem witness_signalsCarryTheElement_values :
    ∃ e0 e1 e2 : Element, e0.kind = .command .ping ∧ (∀ cmd, e1.kind ≠ .command cmd) ∧ e0.payload = .int 1#16 ∧
      e1.payload = .empty ∧ e2.payload = .bytes 0xC1#8 0xC0#8 ∧ State.reset.out = none ∧
      ({ State.reset with out := some e0 } : State).out = some e0 :=
  ⟨{ kind := .command .ping, tStart := Config.resetTime, tEnd := Config.resetTime, payload := .int 1#16 },
    { kind := .frameError, tStart := Config.resetTime, tEnd := Config.resetTime, payload := .empty },
    { kind := .checksum, tStart := Config.resetTime, tEnd := Config.resetTime, payload := .bytes 0xC1#8 0xC0#8 },
    rfl, (by intro cmd h; cases h), rfl, rfl, rfl, rfl, rfl⟩
theorem witness_signalsCarryTheElement :
    Element.signals { kind := .command .unknown, tStart := Config.resetTime, tEnd := Config.resetTime, payload := .int 0#16 } =
    Element.signals { kind := .command .unknown, tStart := Config.resetTime, tEnd := Config.resetTime, payload := .int 0#16 } := rfl
theorem witness_fieldCompletionTest :
    ((midValue []).accCount.toNat : Int) < 2 ∧ (0 : Int) ≤ 0 ∧ (at_ .value 5#16 3#17 []).accCount = 0#3 := by decide
theorem witness_fieldAssembly :
    State.reset.accCount = 0#3 ∧ ([(0xFF#8, Config.resetTime), (0xFD#8, Config.resetTime), (0x00#8, Config.resetTime)] : List (Byte × Config.Time)).length ≤ 3 := by
  decide
theorem witness_stepPriority : (header 0#3 [resetCycle]).pending = resetCycle :: [] := rfl
theorem witness_stepRunsDecodedInstruction :
    (at_ .command 3#16 0#17 [byteAt 7 0x01#8]).TakesByte (byteAt 7 0x01#8) [] ∧
    (at_ .command 3#16 0#17 [byteAt 7 0x01#8]).state = .command ∧
    decode [(byteAt 7 0x01#8).byte] = .instr .ping [] :=
  ⟨⟨rfl, rfl, rfl, by decide⟩, rfl, by decide⟩
theorem witness_overrunGuard_fires : (at_ .value 3#16 3#17 [byteAt 10 0xFF#8]).Overruns (byteAt 10 0xFF#8) [] :=
  ⟨rfl, rfl, rfl, by decide, by decide⟩
theorem witness_overrunGuard_does_not_fire :
    (at_ .value 4#16 3#17 [byteAt 10 0xFF#8]).TakesByte (byteAt 10 0xFF#8) [] :=
  ⟨rfl, rfl, rfl, by decide⟩
theorem witness_onlyTheGuardReportsFrameError :
    ∃ t, (forced [byteAt 3 0xAA#8]).pending = byteAt 3 0xAA#8 :: [] ∧ step (forced [byteAt 3 0xAA#8]) = .next t ∧
      ∃ e, t.out = some e ∧ e.kind = .frameError := ⟨_, rfl, rfl, _, rfl, rfl⟩
theorem witness_forcedLengthsDoNotShow :
    (forced [byteAt 3 0xAA#8]).Overruns (byteAt 3 0xAA#8) [] ∧
    ((forced [byteAt 3 0xAA#8]).setLengths 5#16 9#17).Overruns (byteAt 3 0xAA#8) [] :=
  ⟨⟨rfl, rfl, rfl, by decide, by decide⟩, ⟨rfl, rfl, rfl, by decide, by decide⟩⟩
theorem witness_headerMatchingByte_first :
    (header 0#3 [byteAt 0 0xFF#8]).Inv ∧ (header 0#3 [byteAt 0 0xFF#8]).TakesByte (byteAt 0 0xFF#8) [] ∧
    (header 0#3 [byteAt 0 0xFF#8]).state = .header ∧ headerPattern[(0#3).toNat]? = some (byteAt 0 0xFF#8).byte ∧
    (header 0#3 [byteAt 0 0xFF#8]).headerMatchIndex.toNat < 3 :=
  ⟨inv_header_0 _, ⟨rfl, rfl, rfl, by decide⟩, rfl, by decide, by decide⟩
theorem witness_headerMatchingByte_third :
    (header 2#3 [byteAt 2 0xFD#8]).Inv ∧ (header 2#3 [byteAt 2 0xFD#8]).TakesByte (byteAt 2 0xFD#8) [] ∧
    (header 2#3 [byteAt 2 0xFD#8]).state = .header ∧ headerPattern[(2#3).toNat]? = some (byteAt 2 0xFD#8).byte ∧
    (header 2#3 [byteAt 2 0xFD#8]).headerMatchIndex.toNat < 3 :=
  ⟨inv_header_2 _, ⟨rfl, rfl, rfl, by decide⟩, rfl, by decide, by decide⟩
theorem witness_headerMatchingByte_fourth :
    (header 3#3 [byteAt 3 0x00#8]).Inv ∧ (header 3#3 [byteAt 3 0x00#8]).TakesByte (byteAt 3 0x00#8) [] ∧
    (header 3#3 [byteAt 3 0x00#8]).state = .header ∧ headerPattern[(3#3).toNat]? = some (byteAt 3 0x00#8).byte ∧
    (header 3#3 [byteAt 3 0x00#8]).headerMatchIndex = 3#3 :=
  ⟨inv_header_3 _, ⟨rfl, rfl, rfl, by decide⟩, rfl, by decide, rfl⟩
theorem witness_headerBrokenMatch_first :
    (header 1#3 (stream 1 [0x00#8, 0xFF#8])).Inv ∧
    (header 1#3 (stream 1 [0x00#8, 0xFF#8])).TakesByte (byteAt 1 0x00#8) [byteAt 2 0xFF#8] ∧
    (header 1#3 (stream 1 [0x00#8, 0xFF#8])).state = .header ∧
    (header 1#3 (stream 1 [0x00#8, 0xFF#8])).headerMatchIndex ≠ 0#3 ∧
    headerPattern[(1#3).toNat]? ≠ some (byteAt 1 0x00#8).byte ∧ (byteAt 2 0xFF#8).isByte = true :=
  ⟨inv_header_1 _, ⟨rfl, rfl, rfl, by decide⟩, rfl, by decide, by decide, rfl⟩
theorem witness_headerBrokenMatch_third :
    (header 3#3 (stream 3 [0xFF#8, 0x00#8])).Inv ∧
    (header 3#3 (stream 3 [0xFF#8, 0x00#8])).TakesByte (byteAt 3 0xFF#8) [byteAt 4 0x00#8] ∧
    (header 3#3 (stream 3 [0xFF#8, 0x00#8])).state = .header ∧
    (header 3#3 (stream 3 [0xFF#8, 0x00#8])).headerMatchIndex ≠ 0#3 ∧
    headerPattern[(3#3).toNat]? ≠ some (byteAt 3 0xFF#8).byte ∧ (byteAt 4 0x00#8).isByte = true :=
  ⟨inv_header_3 _, ⟨rfl, rfl, rfl, by decide⟩, rfl, by decide, by decide, rfl⟩
theorem witness_headerIdleScanning :
    (header 0#3 [byteAt 0 0xFE#8]).TakesByte (byteAt 0 0xFE#8) [] ∧ (header 0#3 [byteAt 0 0xFE#8]).state = .header ∧
    (header 0#3 [byteAt 0 0xFE#8]).headerMatchIndex = 0#3 ∧ (byteAt 0 0xFE#8).byte ≠ 0xFF#8 :=
  ⟨⟨rfl, rfl, rfl, by decide⟩, rfl, rfl, by decide⟩
theorem witness_addressByte :
    let s := at_ .address 0#16 0#17 [byteAt 4 0xFF#8]
    s.Inv ∧ s.pending = byteAt 4 0xFF#8 :: [] ∧ (byteAt 4 0xFF#8).isByte = true ∧ s.resetSeen = true ∧
    s.state = .address := ⟨by constructor <;> decide, rfl, rfl, rfl, rfl⟩
theorem witness_lengthField :
    (at_ .length 0#16 0#17 (stream 5 [0x00#8, 0x00#8])).Inv ∧
    (at_ .length 0#16 0#17 (stream 5 [0x00#8, 0x00#8])).TakesByte (byteAt 5 0x00#8) [byteAt 6 0x00#8] ∧
    (byteAt 6 0x00#8).isByte = true ∧ (at_ .length 0#16 0#17 (stream 5 [0x00#8, 0x00#8])).state = .length ∧
    (at_ .length 0#16 0#17 (stream 5 [0x00#8, 0x00#8])).accCount = 0#3 :=
  ⟨inv_length _, ⟨rfl, rfl, rfl, by decide⟩, rfl, rfl, rfl⟩
theorem witness_commandByte :
    (at_ .command 1#16 0#17 [byteAt 7 0x55#8]).Inv ∧
    (at_ .command 1#16 0#17 [byteAt 7 0x55#8]).pending = byteAt 7 0x55#8 :: [] ∧ (byteAt 7 0x55#8).isByte = true ∧
    (at_ .command 1#16 0#17 [byteAt 7 0x55#8]).resetSeen = true ∧
    (at_ .command 1#16 0#17 [byteAt 7 0x55#8]).state = .command := ⟨inv_command_1 _, rfl, rfl, rfl, rfl⟩
/-- Every exec statement (ClassCCommands, ClassRCommands, StatusCommand, UnknownCommand) asks only this. -/
theorem witness_exec : (at_ .command 3#16 0#17 []).accCount = 0#3 := rfl
theorem witness_classCCommands_length_one :
    let s := at_ .command 1#16 0#17 (stream 7 [0x01#8, 0xF5#8])
    ∃ t, s.Inv ∧ s.TakesByte (byteAt 7 0x01#8) [byteAt 8 0xF5#8] ∧ s.state = .command ∧
      (byteAt 7 0x01#8).byte ∈ ([0x01#8, 0x06#8, 0x08#8, 0x10#8] : List Byte) ∧ step s = .next t ∧
      s.declaredLength = 1#16 ∧ (byteAt 8 0xF5#8).isByte = true :=
  ⟨_, inv_command_1 _, ⟨rfl, rfl, rfl, by decide⟩, rfl, by decide, rfl, rfl, rfl⟩
theorem witness_classCCommands_length_zero :
    let s := at_ .command 0#16 0#17 (stream 7 [0x06#8, 0x01#8, 0xC0#8, 0xC1#8])
    ∃ t, s.Inv ∧ s.TakesByte (byteAt 7 0x06#8) (byteAt 8 0x01#8 :: byteAt 9 0xC0#8 :: [byteAt 10 0xC1#8]) ∧
      s.state = .command ∧ (byteAt 7 0x06#8).byte ∈ ([0x01#8, 0x06#8, 0x08#8, 0x10#8] : List Byte) ∧ step s = .next t ∧
      s.declaredLength ≠ 1#16 ∧ (byteAt 8 0x01#8).isByte = true ∧ (byteAt 9 0xC0#8).isByte = true :=
  ⟨_, inv_command_0 _, ⟨rfl, rfl, rfl, by decide⟩, rfl, by decide, rfl, by decide, rfl, rfl⟩
theorem witness_classCCommands_length_two :
    let s := at_ .command 2#16 0#17 (stream 7 [0x10#8, 0xC0#8, 0xC1#8])
    ∃ t, s.Inv ∧ s.TakesByte (byteAt 7 0x10#8) (byteAt 8 0xC0#8 :: byteAt 9 0xC1#8 :: []) ∧ s.state = .command ∧
      (byteAt 7 0x10#8).byte ∈ ([0x01#8, 0x06#8, 0x08#8, 0x10#8] : List Byte) ∧ step s = .next t ∧
      s.declaredLength ≠ 1#16 ∧ (byteAt 8 0xC0#8).isByte = true ∧ (byteAt 9 0xC1#8).isByte = true :=
  ⟨_, inv_command_2 _, ⟨rfl, rfl, rfl, by decide⟩, rfl, by decide, rfl, by decide, rfl, rfl⟩
theorem witness_ramAddressField_length_one :
    let s := at_ .ramAddress 1#16 1#17 (stream 8 [0x1E#8, 0x00#8])
    s.Inv ∧ s.resetSeen = true ∧ s.pending = byteAt 8 0x1E#8 :: byteAt 9 0x00#8 :: [] ∧ (byteAt 8 0x1E#8).isByte = true ∧
    (byteAt 9 0x00#8).isByte = true ∧ s.state = .ramAddress ∧ s.accCount = 0#3 ∧ s.declaredLength = 1#16 :=
  ⟨inv_ramAddress_1 _, rfl, rfl, rfl, rfl, rfl, rfl, rfl⟩
theorem witness_ramAddressField_length_two :
    let s := at_ .ramAddress 2#16 1#17 (stream 8 [0x1E#8, 0x00#8])
    s.Inv ∧ s.resetSeen = true ∧ s.pending = byteAt 8 0x1E#8 :: byteAt 9 0x00#8 :: [] ∧ (byteAt 8 0x1E#8).isByte = true ∧
    (byteAt 9 0x00#8).isByte = true ∧ s.state = .ramAddress ∧ s.accCount = 0#3 ∧ s.declaredLength ≠ 1#16 :=
  ⟨inv_ramAddress_2 _, rfl, rfl, rfl, rfl, rfl, rfl, by decide⟩
theorem witness_ramAddressField_length_zero :
    let s := at_ .ramAddress 0#16 0#17 (stream 8 [0x1E#8, 0x00#8])
    s.Inv ∧ s.resetSeen = true ∧ s.pending = byteAt 8 0x1E#8 :: byteAt 9 0x00#8 :: [] ∧ (byteAt 8 0x1E#8).isByte = true ∧
    (byteAt 9 0x00#8).isByte = true ∧ s.state = .ramAddress ∧ s.accCount = 0#3 ∧ s.declaredLength ≠ 1#16 :=
  ⟨inv_ramAddress_0 _, rfl, rfl, rfl, rfl, rfl, rfl, by decide⟩
theorem witness_errorCodeByte_length_one :
    let s := at_ .errorCode 1#16 1#17 [byteAt 8 0x80#8]
    s.Inv ∧ s.resetSeen = true ∧ s.pending = byteAt 8 0x80#8 :: [] ∧ (byteAt 8 0x80#8).isByte = true ∧
    s.state = .errorCode ∧ s.declaredLength = 1#16 := ⟨inv_errorCode_1 _, rfl, rfl, rfl, rfl, rfl⟩
theorem witness_errorCodeByte_length_two :
    let s := at_ .errorCode 2#16 1#17 [byteAt 8 0x80#8]
    s.Inv ∧ s.resetSeen = true ∧ s.pending = byteAt 8 0x80#8 :: [] ∧ (byteAt 8 0x80#8).isByte = true ∧
    s.state = .errorCode ∧ s.declaredLength ≠ 1#16 := ⟨inv_errorCode_2 _, rfl, rfl, rfl, rfl, by decide⟩
theorem witness_errorCodeByte_length_four :
    let s := at_ .errorCode 4#16 1#17 [byteAt 8 0x80#8]
    s.Inv ∧ s.resetSeen = true ∧ s.pending = byteAt 8 0x80#8 :: [] ∧ (byteAt 8 0x80#8).isByte = true ∧
    s.state = .errorCode ∧ s.declaredLength ≠ 1#16 := ⟨inv_errorCode_4 _, rfl, rfl, rfl, rfl, by decide⟩
theorem witness_errorCodeByte_length_zero :
    let s := at_ .errorCode 0#16 0#17 [byteAt 8 0x80#8]
    s.Inv ∧ s.resetSeen = true ∧ s.pending = byteAt 8 0x80#8 :: [] ∧ (byteAt 8 0x80#8).isByte = true ∧
    s.state = .errorCode ∧ s.declaredLength ≠ 1#16 := ⟨inv_errorCode_0 _, rfl, rfl, rfl, rfl, by decide⟩
theorem witness_valueByte_held :
    let s := at_ .value 7#16 3#17 [byteAt 10 0x64#8]
    s.Inv ∧ s.TakesByte (byteAt 10 0x64#8) [] ∧ s.state = .value ∧ s.accCount = 0#3 ∧
    (s.declaredLength.toNat : Int) - (s.consumedLength.toNat : Int) - 2 = 2 :=
  ⟨inv_value_7_3 _, ⟨rfl, rfl, rfl, by decide⟩, rfl, rfl, by decide⟩
theorem witness_valueByte_single :
    let s := at_ .value 6#16 3#17 [byteAt 10 0x64#8]
    s.Inv ∧ s.TakesByte (byteAt 10 0x64#8) [] ∧ s.state = .value ∧ s.accCount = 0#3 ∧
    (s.declaredLength.toNat : Int) - (s.consumedLength.toNat : Int) - 2 = 1 :=
  ⟨inv_value_6_3 _, ⟨rfl, rfl, rfl, by decide⟩, rfl, rfl, by decide⟩
theorem witness_valueByte_no_room :
    let s := at_ .value 0#16 0#17 [byteAt 10 0x64#8]
    s.Inv ∧ s.TakesByte (byteAt 10 0x64#8) [] ∧ s.state = .value ∧ s.accCount = 0#3 ∧
    (s.declaredLength.toNat : Int) - (s.consumedLength.toNat : Int) - 2 = -2 :=
  ⟨inv_value_0_0 _, ⟨rfl, rfl, rfl, by decide⟩, rfl, rfl, by decide⟩
theorem witness_valueByte_second :
    let s := midValue [byteAt 11 0x00#8]
    s.Inv ∧ s.TakesByte (byteAt 11 0x00#8) [] ∧ s.state = .value ∧ s.accCount = 1#3 ∧ s.accBytes = [0x64#8] :=
  ⟨inv_midValue _, ⟨rfl, rfl, rfl, by decide⟩, rfl, rfl, rfl⟩
theorem witness_valuePhaseNormal :
    let cs := stream 10 [0x64#8, 0x00#8]
    let s := at_ .value 7#16 3#17 cs
    s.Inv ∧ s.resetSeen = true ∧ s.state = .value ∧ s.accCount = 0#3 ∧
    s.consumedLength.toNat + 2 + cs.length = s.declaredLength.toNat ∧ cs ≠ [] ∧ (∀ c ∈ cs, c.isByte = true) ∧
    s.pending = cs ++ [] :=
  ⟨inv_value_7_3 _, rfl, rfl, rfl, by decide, by decide, by decide, rfl⟩
theorem witness_valuePhaseOverrun :
    let cs := stream 10 [0x64#8, 0x00#8]
    let s := at_ .value 5#16 3#17 (cs ++ byteAt 12 0x12#8 :: [])
    s.Inv ∧ s.resetSeen = true ∧ s.state = .value ∧ s.accCount = 0#3 ∧ s.declaredLength ≠ 0#16 ∧
    s.declaredLength.toNat ≤ s.consumedLength.toNat + 2 ∧
    cs.length = s.declaredLength.toNat - s.consumedLength.toNat ∧ (∀ c ∈ cs ++ [byteAt 12 0x12#8], c.isByte = true) :=
  ⟨inv_value_5_3 _, rfl, rfl, rfl, by decide, by decide, by decide, by decide⟩
theorem witness_valuePhaseOverrun_at_once :
    let s := at_ .value 2#16 3#17 ([] ++ byteAt 10 0x64#8 :: [])
    s.Inv ∧ s.resetSeen = true ∧ s.state = .value ∧ s.accCount = 0#3 ∧ s.declaredLength ≠ 0#16 ∧
    s.declaredLength.toNat ≤ s.consumedLength.toNat + 2 ∧
    ([] : List Cycle).length = s.declaredLength.toNat - s.consumedLength.toNat ∧
    (∀ c ∈ [] ++ [byteAt 10 0x64#8], c.isByte = true) :=
  ⟨inv_value_2_3 _, rfl, rfl, rfl, by decide, by decide, by decide, by decide⟩
theorem witness_zeroLengthLockUp_classR :
    let pre := stream 8 [0x10#8, 0x00#8]
    let cs := stream 10 [0xFF#8, 0xFF#8]
    let s := at_ .command 0#16 0#17 (byteAt 7 0x03#8 :: (pre ++ cs ++ [resetCycle]))
    s.Inv ∧ s.resetSeen = true ∧ s.state = .command ∧ s.declaredLength = 0#16 ∧
    (∀ x ∈ byteAt 7 0x03#8 :: (pre ++ cs), x.isByte = true) ∧
    payloadClass (decodeCommand (byteAt 7 0x03#8).byte) = .ramAddress ∧ pre.length = 2 ∧ resetCycle.rst = true :=
  ⟨inv_command_0 _, rfl, rfl, rfl, by decide, by decide, by decide, rfl⟩
theorem witness_zeroLengthLockUp_classS :
    let pre := stream 8 [0x00#8]
    let cs := stream 9 [0xFF#8, 0xFF#8]
    let s := at_ .command 0#16 0#17 (byteAt 7 0x55#8 :: (pre ++ cs ++ [resetCycle]))
    s.Inv ∧ s.resetSeen = true ∧ s.state = .command ∧ s.declaredLength = 0#16 ∧
    (∀ x ∈ byteAt 7 0x55#8 :: (pre ++ cs), x.isByte = true) ∧
    payloadClass (decodeCommand (byteAt 7 0x55#8).byte) = .statusError ∧ pre.length = 1 ∧ resetCycle.rst = true :=
  ⟨inv_command_0 _, rfl, rfl, rfl, by decide, by decide, by decide, rfl⟩
theorem witness_zeroLengthLockUp_classU :
    let pre := stream 8 []
    let cs := stream 8 [0xFF#8, 0xFF#8]
    let s := at_ .command 0#16 0#17 (byteAt 7 0x20#8 :: (pre ++ cs ++ [resetCycle]))
    s.Inv ∧ s.resetSeen = true ∧ s.state = .command ∧ s.declaredLength = 0#16 ∧
    (∀ x ∈ byteAt 7 0x20#8 :: (pre ++ cs), x.isByte = true) ∧
    payloadClass (decodeCommand (byteAt 7 0x20#8).byte) = .unknown ∧ pre.length = 0 ∧ resetCycle.rst = true :=
  ⟨inv_command_0 _, rfl, rfl, rfl, by decide, by decide, by decide, rfl⟩
theorem witness_zeroLengthLockUpIsKept :
    let s := at_ .value 0#16 0#17 [byteAt 10 0xFF#8]
    ∃ t, s.Locked ∧ (∀ (c : Cycle) (rest : List Cycle), s.pending = c :: rest → c.rst = false) ∧ step s = .next t ∧
      (byteAt 10 0xFF#8).isByte = true :=
  ⟨_, ⟨rfl, rfl, rfl⟩, (by intro c rest h; cases h; rfl), rfl, rfl⟩
theorem witness_checksumField :
    let s := at_ .checksum 3#16 1#17 (stream 8 [0xF5#8, 0xF5#8])
    s.TakesByte (byteAt 8 0xF5#8) [byteAt 9 0xF5#8] ∧ (byteAt 9 0xF5#8).isByte = true ∧ s.state = .checksum ∧
    s.accCount = 0#3 := ⟨⟨rfl, rfl, rfl, by decide⟩, rfl, rfl, rfl⟩
theorem witness_resetCycle : (midValue [resetCycle]).pending = resetCycle :: [] ∧ resetCycle.rst = true := ⟨rfl, rfl⟩
theorem witness_byteBeforeFirstResetRefused :
    ({ header 0#3 [byteAt 0 0xFF#8] with resetSeen := false } : State).pending = byteAt 0 0xFF#8 :: [] ∧
    (byteAt 0 0xFF#8).isByte = true ∧ ({ header 0#3 [byteAt 0 0xFF#8] with resetSeen := false } : State).resetSeen = false :=
  ⟨rfl, rfl, rfl⟩
theorem witness_idleCycle : (midValue [Cycle.idle]).pending = Cycle.idle :: [] ∧ Cycle.idle.valid = false ∧
    Cycle.idle.rst = false := ⟨rfl, rfl, rfl⟩
theorem witness_endOfStream : (forced []).pending = [] := rfl
theorem witness_stepKeepsInvariant : ∃ t, (midValue [byteAt 11 0x00#8]).Inv ∧ step (midValue [byteAt 11 0x00#8]) = .next t :=
  ⟨_, inv_midValue _, rfl⟩
theorem witness_byteStepsComplete : (header 3#3 [byteAt 3 0x00#8]).Inv ∧ (header 3#3 [byteAt 3 0x00#8]).resetSeen = true :=
  ⟨inv_header_3 _, rfl⟩
theorem witness_successorRelation :
    let s := header 3#3 [byteAt 3 0x00#8]
    ∃ t, s.Inv ∧ s.pending = byteAt 3 0x00#8 :: [] ∧ step s = .next t ∧ s.TakesByte (byteAt 3 0x00#8) [] :=
  ⟨_, inv_header_3 _, rfl, rfl, ⟨rfl, rfl, rfl, by decide⟩⟩
theorem witness_successorRelation_guard :
    let s := forced [byteAt 3 0xAA#8]
    ∃ t, s.Inv ∧ s.pending = byteAt 3 0xAA#8 :: [] ∧ step s = .next t ∧ s.Overruns (byteAt 3 0xAA#8) [] :=
  ⟨_, by constructor <;> decide, rfl, rfl, ⟨rfl, rfl, rfl, by decide, by decide⟩⟩
theorem witness_successorRelation_reset :
    let s := midValue [resetCycle]
    ∃ t, s.Inv ∧ s.pending = resetCycle :: [] ∧ step s = .next t ∧ resetCycle.rst = true := ⟨_, inv_midValue _, rfl, rfl, rfl⟩
theorem witness_successorRelation_idle :
    let s := midValue [Cycle.idle]
    ∃ t, s.Inv ∧ s.pending = Cycle.idle :: [] ∧ step s = .next t ∧ Cycle.idle.rst = false ∧ Cycle.idle.valid = false :=
  ⟨_, inv_midValue _, rfl, rfl, rfl, rfl⟩
theorem witness_registerWriters :
    ∃ t, (at_ .address 0#16 0#17 [byteAt 4 0x01#8]).TakesByte (byteAt 4 0x01#8) [] ∧
      step (at_ .address 0#16 0#17 [byteAt 4 0x01#8]) = .next t := ⟨_, ⟨rfl, rfl, rfl, by decide⟩, rfl⟩
theorem witness_elementSpans :
    ∃ t e, (midValue [byteAt 11 0x00#8]).pending = byteAt 11 0x00#8 :: [] ∧ step (midValue [byteAt 11 0x00#8]) = .next t ∧
      t.out = some e := ⟨_, _, rfl, rfl, rfl⟩
theorem witness_timesAreOnlyCopied :
    (fun _ : Config.Time => Config.resetTime) Config.resetTime = Config.resetTime ∧
    (∀ (c : Cycle) (rest : List Cycle), (midValue []).pending = c :: rest → c.rst = false) := ⟨rfl, by intro _ _ h; cases h⟩
theorem witness_whereOverrunsArise :
    ∃ t, (at_ .command 1#16 0#17 [byteAt 7 0x01#8]).Inv ∧
      (at_ .command 1#16 0#17 [byteAt 7 0x01#8]).TakesByte (byteAt 7 0x01#8) [] ∧
      step (at_ .command 1#16 0#17 [byteAt 7 0x01#8]) = .next t ∧ t.declaredLength ≠ 0#16 ∧
      t.declaredLength.toNat ≤ t.consumedLength.toNat :=
  ⟨_, inv_command_1 _, ⟨rfl, rfl, rfl, by decide⟩, rfl, by decide, by decide⟩
/-- Two bytes after the error, with an idle cycle between them. -/
theorem witness_frameErrorsAreThreeBytesApart_idle :
    let cs := [byteAt 4 0xFF#8, Cycle.idle, byteAt 5 0x00#8]
    (forced (byteAt 3 0xAA#8 :: (cs ++ [byteAt 6 0x01#8]))).Overruns (byteAt 3 0xAA#8) (cs ++ [byteAt 6 0x01#8]) ∧
    (cs.filter Cycle.isByte).length = 2 := ⟨⟨rfl, rfl, rfl, by decide, by decide⟩, by decide⟩
theorem witness_frameErrorsAreThreeBytesApart :
    (forced (stream 3 [0xAA#8, 0xFF#8, 0x00#8, 0x01#8])).Overruns (byteAt 3 0xAA#8)
      (byteAt 4 0xFF#8 :: byteAt 5 0x00#8 :: byteAt 6 0x01#8 :: []) ∧
    (byteAt 4 0xFF#8).isByte = true ∧ (byteAt 5 0x00#8).isByte = true ∧ (byteAt 6 0x01#8).isByte = true ∧
    (byteAt 4 0xFF#8).byte = 0xFF#8 ∧ (byteAt 5 0x00#8).byte ≠ 0xFF#8 :=
  ⟨⟨rfl, rfl, rfl, by decide, by decide⟩, rfl, rfl, rfl, rfl, by decide⟩
theorem witness_guardCutsTheNextHeader :
    (at_ .value 3#16 3#17 (stream 10 [0xFF#8, 0xFF#8, 0xFD#8, 0x00#8])).Overruns (byteAt 10 0xFF#8)
      (byteAt 11 0xFF#8 :: byteAt 12 0xFD#8 :: byteAt 13 0x00#8 :: []) ∧
    [(byteAt 10 0xFF#8).byte, (byteAt 11 0xFF#8).byte, (byteAt 12 0xFD#8).byte, (byteAt 13 0x00#8).byte] = headerPattern :=
  ⟨⟨rfl, rfl, rfl, by decide, by decide⟩, rfl⟩
/-- The header begins on the byte that breaks the match at index 2. -/
theorem witness_brokenMatchLosesTheNextHeader_at_third :
    let s := header 2#3 (stream 2 [0xFF#8, 0xFF#8, 0xFD#8, 0x00#8])
    s.Inv ∧ s.TakesByte (byteAt 2 0xFF#8) (stream 3 [0xFF#8, 0xFD#8, 0x00#8]) ∧ s.state = .header ∧
    s.headerMatchIndex ≠ 0#3 ∧ headerPattern[s.headerMatchIndex.toNat]? ≠ some (byteAt 2 0xFF#8).byte ∧
    (∀ c ∈ stream 3 [0xFF#8, 0xFD#8, 0x00#8], c.isByte = true) :=
  ⟨inv_header_2 _, ⟨rfl, rfl, rfl, by decide⟩, rfl, by decide, by decide, by decide⟩
/-- The header begins on the byte that breaks the match at index 3. -/
theorem witness_brokenMatchLosesTheNextHeader_at_fourth :
    let s := header 3#3 (stream 3 [0xFF#8, 0xFF#8, 0xFD#8, 0x00#8])
    s.Inv ∧ s.TakesByte (byteAt 3 0xFF#8) (stream 4 [0xFF#8, 0xFD#8, 0x00#8]) ∧ s.state = .header ∧
    s.headerMatchIndex ≠ 0#3 ∧ headerPattern[s.headerMatchIndex.toNat]? ≠ some (byteAt 3 0xFF#8).byte ∧
    (∀ c ∈ stream 4 [0xFF#8, 0xFD#8, 0x00#8], c.isByte = true) :=
  ⟨inv_header_3 _, ⟨rfl, rfl, rfl, by decide⟩, rfl, by decide, by decide, by decide⟩
/-- The header begins after the byte that breaks the match at index 1. -/
theorem witness_brokenMatchLosesTheNextHeader_after_second :
    let s := header 1#3 (stream 1 [0x00#8, 0xFF#8, 0xFF#8, 0xFD#8, 0x00#8])
    s.Inv ∧ s.TakesByte (byteAt 1 0x00#8) (stream 2 [0xFF#8, 0xFF#8, 0xFD#8, 0x00#8]) ∧ s.state = .header ∧
    s.headerMatchIndex ≠ 0#3 ∧ headerPattern[s.headerMatchIndex.toNat]? ≠ some (byteAt 1 0x00#8).byte ∧
    (∀ c ∈ stream 2 [0xFF#8, 0xFF#8, 0xFD#8, 0x00#8], c.isByte = true) :=
  ⟨inv_header_1 _, ⟨rfl, rfl, rfl, by decide⟩, rfl, by decide, by decide, by decide⟩
/-- The header begins after the byte that breaks the match at index 2. -/
theorem witness_brokenMatchLosesTheNextHeader_after_third :
    let s := header 2#3 (stream 2 [0xFF#8, 0xFF#8, 0xFF#8, 0xFD#8, 0x00#8])
    s.Inv ∧ s.TakesByte (byteAt 2 0xFF#8) (stream 3 [0xFF#8, 0xFF#8, 0xFD#8, 0x00#8]) ∧ s.state = .header ∧
    s.headerMatchIndex ≠ 0#3 ∧ headerPattern[s.headerMatchIndex.toNat]? ≠ some (byteAt 2 0xFF#8).byte ∧
    (∀ c ∈ stream 3 [0xFF#8, 0xFF#8, 0xFD#8, 0x00#8], c.isByte = true) :=
  ⟨inv_header_2 _, ⟨rfl, rfl, rfl, by decide⟩, rfl, by decide, by decide, by decide⟩
/-- The header begins after the byte that breaks the match at index 3. -/
theorem witness_brokenMatchLosesTheNextHeader_after_fourth :
    let s := header 3#3 (stream 3 [0xAA#8, 0xFF#8, 0xFF#8, 0xFD#8, 0x00#8])
    s.Inv ∧ s.TakesByte (byteAt 3 0xAA#8) (stream 4 [0xFF#8, 0xFF#8, 0xFD#8, 0x00#8]) ∧ s.state = .header ∧
    s.headerMatchIndex ≠ 0#3 ∧ headerPattern[s.headerMatchIndex.toNat]? ≠ some (byteAt 3 0xAA#8).byte ∧
    (∀ c ∈ stream 4 [0xFF#8, 0xFF#8, 0xFD#8, 0x00#8], c.isByte = true) :=
  ⟨inv_header_3 _, ⟨rfl, rfl, rfl, by decide⟩, rfl, by decide, by decide, by decide⟩
theorem witness_shortLengthsEndInFrameError_action :
    let xs := stream 8 [0xAB#8, 0xCD#8]
    let s := at_ .command 3#16 0#17 (byteAt 7 0x05#8 :: (xs ++ byteAt 10 0xFF#8 :: []))
    s.Inv ∧ s.resetSeen = true ∧ s.state = .command ∧ s.declaredLength ≠ 0#16 ∧ s.declaredLength.toNat < 6 ∧
    payloadClass (decodeCommand (byteAt 7 0x05#8).byte) = .ramAddress ∧ 1 + xs.length = s.declaredLength.toNat ∧
    (∀ x ∈ byteAt 7 0x05#8 :: (xs ++ [byteAt 10 0xFF#8]), x.isByte = true) :=
  ⟨inv_command_3 _, rfl, rfl, by decide, by decide, by decide, by decide, by decide⟩
theorem witness_shortLengthsEndInFrameError_status :
    let s := at_ .command 1#16 0#17 (byteAt 7 0x55#8 :: ([] ++ byteAt 8 0xFF#8 :: []))
    s.Inv ∧ s.resetSeen = true ∧ s.state = .command ∧ s.declaredLength ≠ 0#16 ∧ s.declaredLength.toNat < 4 ∧
    payloadClass (decodeCommand (byteAt 7 0x55#8).byte) = .statusError ∧
    1 + ([] : List Cycle).length = s.declaredLength.toNat ∧
    (∀ x ∈ byteAt 7 0x55#8 :: ([] ++ [byteAt 8 0xFF#8]), x.isByte = true) :=
  ⟨inv_command_1 _, rfl, rfl, by decide, by decide, by decide, by decide, by decide⟩
theorem witness_elementPayloads :
    let s := header 3#3 [byteAt 3 0x00#8]
    ∃ t e, s.pending = byteAt 3 0x00#8 :: [] ∧ step s = .next t ∧ t.out = some e ∧ e.kind = .header :=
  ⟨_, _, rfl, rfl, rfl, rfl⟩
theorem witness_stepKeepsUnreadDifferences :
    let s := header 0#3 (stream 0 [0xFF#8])
    ∃ t, s.SameToLaterSteps { s with fieldValue := 7#32, currentCommand := .ping, accBytes := [0x01#8] } ∧
      step s = .next t := ⟨_, ⟨rfl, rfl, rfl, rfl, rfl, rfl, rfl, by decide, by decide⟩, rfl⟩
theorem witness_unreadRegistersNeverShow :
    ({ header 0#3 (stream 0 [0xFF#8]) with fieldValue := 7#32, currentCommand := .ping, accBytes := [0x01#8] } : State).SameToLaterSteps
      (header 0#3 (stream 0 [0xFF#8])) :=
  ⟨rfl, rfl, rfl, rfl, rfl, rfl, rfl, by decide, by decide⟩
theorem witness_errorAndChecksumResynchronise_error :
    ∃ t e, (forced [byteAt 3 0xAA#8]).pending = byteAt 3 0xAA#8 :: [] ∧ step (forced [byteAt 3 0xAA#8]) = .next t ∧
      t.out = some e ∧ e.kind = .frameError ∧ (forced [byteAt 3 0xAA#8]).Inv :=
  ⟨_, _, rfl, rfl, rfl, rfl, by constructor <;> decide⟩
theorem witness_errorAndChecksumResynchronise_checksum :
    ∃ s t e, s.pending = byteAt 13 0xC1#8 :: [] ∧ step s = .next t ∧ t.out = some e ∧ e.kind = .checksum ∧ s.Inv :=
  ⟨{ at_ .checksum 7#16 5#17 [byteAt 13 0xC1#8] with accCount := 1#3, accBytes := [0xC0#8] },
    _, _, rfl, rfl, rfl, rfl, inv_midChecksum _⟩

/-- A packet from reset: the header, the address 01, a length below 256, the command, the payload and the checksum. -/
def packetOf (time : Nat → Config.Time) (len cmd : Byte) (payload : List Byte) (crc0 crc1 : Byte) : Packet :=
  { h0 := byteOf time 0 0xFF#8, h1 := byteOf time 1 0xFF#8, h2 := byteOf time 2 0xFD#8, h3 := byteOf time 3 0x00#8
    addr := byteOf time 4 0x01#8, len0 := byteOf time 5 len, len1 := byteOf time 6 0x00#8, cmd := byteOf time 7 cmd
    payload := streamOf time 8 payload
    crc0 := byteOf time (8 + payload.length) crc0, crc1 := byteOf time (9 + payload.length) crc1 }

/-- The same where no test looks at the times. -/
def packet (len cmd : Byte) (payload : List Byte) (crc0 crc1 : Byte) : Packet :=
  packetOf (fun _ => Config.resetTime) len cmd payload crc0 crc1

theorem witness_normalPacketsDecode_ping :
    let p := packet 0x03#8 0x01#8 [] 0x19#8 0x4E#8
    let s := State.reset.withStream (p.cycles ++ [])
    s.AtPacketStart ∧ s.resetSeen = true ∧ p.ClosesNormally ∧ s.pending = p.cycles ++ [] :=
  ⟨⟨rfl, rfl, rfl, rfl, rfl⟩, rfl, ⟨by decide, by decide, by decide, by decide⟩, rfl⟩
/-- R108's example: with a declared length of 4 the parameter byte and the next one are the checksum. -/
theorem witness_normalPacketsDecode_factoryReset_length_four : (packet 0x04#8 0x06#8 [] 0x01#8 0xC0#8).ClosesNormally :=
  ⟨by decide, by decide, by decide, by decide⟩
/-- Class C at the two lengths next to 1. -/
theorem witness_normalPacketsDecode_clear_lengths_zero_and_two :
    (packet 0x00#8 0x10#8 [] 0x19#8 0x4E#8).ClosesNormally ∧ (packet 0x02#8 0x10#8 [] 0x19#8 0x4E#8).ClosesNormally :=
  ⟨⟨by decide, by decide, by decide, by decide⟩, ⟨by decide, by decide, by decide, by decide⟩⟩
/-- The shortest packet of class R that closes normally (R65). -/
theorem witness_normalPacketsDecode_write : (packet 0x06#8 0x03#8 [0x1E#8, 0x00#8, 0x64#8] 0x12#8 0x34#8).ClosesNormally :=
  ⟨by decide, by decide, by decide, by decide⟩
/-- The shortest packet of class S. -/
theorem witness_normalPacketsDecode_status : (packet 0x04#8 0x55#8 [0x00#8] 0xC0#8 0xC1#8).ClosesNormally :=
  ⟨by decide, by decide, by decide, by decide⟩
/-- The shortest packet of class U. -/
theorem witness_normalPacketsDecode_unknown : (packet 0x04#8 0x7E#8 [0xCD#8] 0x11#8 0x22#8).ClosesNormally :=
  ⟨by decide, by decide, by decide, by decide⟩
/-- The elements of P2's first packet, as its table lists them. -/
theorem test_status_packet_elements (time : Nat → Config.Time) :
    (packetOf time 0x07#8 0x55#8 [0x00#8, 0x24#8, 0x00#8, 0x01#8] 0xC0#8 0xC1#8).elements.map
      (fun e => (e.kind, e.tStart, e.tEnd, e.payload)) =
    [(.header, time 0, time 38, .empty), (.address, time 40, time 48, .int 1#16),
     (.length, time 50, time 68, .int 7#16), (.command .status, time 70, time 78, .int 0x55#16),
     (.errorCode, time 80, time 88, .int 0#16), (.value, time 90, time 108, .int 0x24#16),
     (.value, time 110, time 118, .int 1#16), (.checksum, time 120, time 138, .bytes 0xC1#8 0xC0#8)] := by
  with_unfolding_all rfl

end Sys2Proof.Tests
end

section
/-! The ports (spec/20_memory.md): a cycle with neither `in_valid` nor `rst` is not a step (R44). -/

namespace Sys2Proof.Machine

/-- R44 on the port alone: with `rst` and `in_valid` both low, neither the reset nor the byte branch of the cycle runs. -/
theorem runCycle_idle {s : State} (hv : s.inp.valid = false) (hrst : s.inp.rst = false) : runCycle s = .next s := by
  simp only [runCycle, hv, hrst, Bool.false_eq_true, if_false]

/-- A step on an idle cycle does no more than receive the cycle. -/
theorem step_idle {s : State} {c : Cycle} {rest : List Cycle} (hn : s.pending = c :: rest) (hv : c.valid = false)
    (hrst : c.rst = false) : step s = .next (s.receive c rest) := by
  rw [step, takeCycle_cons hn]
  exact runCycle_idle (by rwa [State.receive_inp]) (by rwa [State.receive_inp])

/-- Settles O37: `receive` keeps every register and clears the output port, and an idle step is a `receive`. -/
theorem idleCycle : Obligations.IdleCycle := by
  unfold Obligations.IdleCycle
  intro s c rest hn hv hrst
  exact step_idle hn hv hrst

end Sys2Proof.Machine
end

section
/-! The encoding of the command byte and the Command type (spec/30_encoding.md R67, R68, R70). -/

namespace Sys2Proof.Machine

/-- The decoder's exact-match rows are those of the 13 named codes. -/
theorem namedRows_map_fst : namedRows.map Prod.fst = namedCodes := rfl

/-- The fallback row of R68 and R69: no exact-match row finds a byte that is not a named code. -/
theorem decodeByte_of_not_mem_namedCodes {c : Byte} (h : c ∉ namedCodes) : decodeByte c = .unknown c := by
  have hfind : namedRows.find? (fun row => row.1 == c) = none := by
    rw [List.find?_eq_none]
    intro row hrow hc
    have hmem : row.1 ∈ namedCodes := namedRows_map_fst ▸ List.mem_map_of_mem hrow
    exact h (beq_iff_eq.1 hc ▸ hmem)
  rw [decodeByte, hfind]

/-- Settles O3: the 13 rows are checked one by one, and the fallback row answers every other byte. -/
theorem commandTable : Obligations.CommandTable := by
  unfold Obligations.CommandTable
  refine ⟨by decide, ?_, rfl, rfl⟩
  intro c hc
  have hdecode : decodeByte c = .unknown c := decodeByte_of_not_mem_namedCodes hc
  rw [decodeCommand, hdecode, Instr.command]

/-- Settles O4, by cases on the variant for the list, and by evaluation for the codes. -/
theorem commandVariantCodes : Obligations.CommandVariantCodes := by
  unfold Obligations.CommandVariantCodes
  refine ⟨?_, by decide⟩
  intro cmd
  cases cmd <;> decide

end Sys2Proof.Machine
end

section
/-! The time span of an element (spec/30_encoding.md R74): what `packet_start_time` holds when a field completes, then every
state rule in turn. -/

namespace Sys2Proof.Machine

/-- The start time of the field that the byte on the port belongs to (R26, R81): the byte's own when it is the field's
first, else the recorded one. -/
def State.fieldStart (s : State) : Config.Time := if s.accCount = 0#3 then s.inp.tStart else s.packetStartTime

theorem receive_fieldStart (s : State) (c : Cycle) (rest : List Cycle) :
    (s.receive c rest).fieldStart = if s.accCount = 0#3 then c.tStart else s.packetStartTime := rfl

/-- R74 for an element reported by the byte on the port of `s`. -/
structure Element.SpanIn (s : State) (e : Element) : Prop where
  tEnd : e.tEnd = s.inp.tEnd
  tStart : e.tStart = if e.kind = .address ∨ e.kind = .frameError then s.inp.tStart else s.fieldStart

/-- The state `t` reports nothing, or an element with the span R74 gives it for the byte on the port of `s`. -/
def ReportsSpan (s t : State) : Prop := ∀ e : Element, t.out = some e → e.SpanIn s

theorem reportsSpan_of_out_eq_none {s t : State} (h : t.out = none) : ReportsSpan s t := by
  intro e he
  rw [h] at he
  cases he

/-- An element of kind Address or FrameError, reported over the current byte alone. -/
theorem reportsSpan_of_byte_span {s t : State} {k : Kind} {p : Payload} (hk : k = .address ∨ k = .frameError)
    (h : t.out = some { kind := k, tStart := s.inp.tStart, tEnd := s.inp.tEnd, payload := p }) : ReportsSpan s t := by
  intro e he
  obtain rfl := Option.some.inj (h.symm.trans he)
  exact ⟨rfl, (if_pos hk).symm⟩

/-- What the accumulator and the updates after it keep, from the state `s` that takes the byte to the state `t` that reports
the field: the field's start time is recorded, and the ports are as they were. -/
structure State.FieldOf (s t : State) : Prop where
  start : t.packetStartTime = s.fieldStart
  inp : t.inp = s.inp
  out : t.out = s.out

theorem beginField_packetStartTime (s : State) : (s.beginField s.inp.tStart).packetStartTime = s.fieldStart := by
  unfold State.beginField State.fieldStart
  split <;> rfl

/-- Complete or not, the field's start time is recorded and nothing is reported (R81). -/
theorem accumulate_fieldOf (b : Byte) (n : Int) (s : State) : s.FieldOf (accumulate b s.inp.tStart n s).2 := by
  rcases accumulate_cases b s.inp.tStart n s with ⟨_, h⟩ | ⟨_, h⟩
  · rw [h]
    exact ⟨beginField_packetStartTime s, by simp, by simp⟩
  · rw [h]
    exact ⟨beginField_packetStartTime s, by simp, by simp⟩

theorem accumulateByte_fieldOf {n : Int} {s t : State} {done : Bool} (h : s.accumulateByte n = (done, t)) :
    s.FieldOf t := by
  have hfield := accumulate_fieldOf s.inp.byte n s
  rwa [← State.accumulateByte, h] at hfield

section
variable {s t : State}

theorem State.FieldOf.goto (h : s.FieldOf t) (p : PacketState) : s.FieldOf (t.goto p) := ⟨h.start, h.inp, h.out⟩

theorem State.FieldOf.setLengths (h : s.FieldOf t) (d : BitVec 16) (c : BitVec 17) : s.FieldOf (t.setLengths d c) :=
  ⟨h.start, h.inp, h.out⟩

theorem State.FieldOf.setMatchIndex (h : s.FieldOf t) (i : BitVec 3) : s.FieldOf (t.setMatchIndex i) :=
  ⟨h.start, h.inp, h.out⟩

theorem State.FieldOf.setCommand (h : s.FieldOf t) (cmd : Command) : s.FieldOf (t.setCommand cmd) :=
  ⟨h.start, h.inp, h.out⟩

/-- The match index is not part of the field (R95 advances it before the byte is accumulated). -/
theorem State.FieldOf.of_setMatchIndex {i : BitVec 3} (h : (s.setMatchIndex i).FieldOf t) : s.FieldOf t :=
  ⟨h.start, h.inp, h.out⟩

theorem State.FieldOf.held (h : s.FieldOf t) (hs : s.out = none) : ReportsSpan s t :=
  reportsSpan_of_out_eq_none (h.out.trans hs)

/-- The element of a completed field starts where the field does. -/
theorem State.FieldOf.emitField (h : s.FieldOf t) {k : Kind} (hk : ¬ (k = .address ∨ k = .frameError)) (p : Payload) :
    ReportsSpan s (t.emitField k p) := by
  intro e he
  obtain rfl := Option.some.inj he
  exact ⟨congrArg Cycle.tEnd h.inp, h.start.trans (if_neg hk).symm⟩

end

/-! ### The state rules -/

section
variable {s t : State}

theorem headerMatch_reportsSpan (hs : s.out = none) : ReportsSpan s (headerMatch s) := by
  unfold headerMatch
  split
  next t h =>
    exact (((accumulateByte_fieldOf h).of_setMatchIndex.setMatchIndex _).goto _).emitField (by decide) _
  next t h => exact (accumulateByte_fieldOf h).of_setMatchIndex.held hs

theorem headerStep_reportsSpan (hs : s.out = none) (h : headerStep s = .next t) : ReportsSpan s t := by
  unfold headerStep at h
  split at h
  next => cases h
  next =>
    split at h
    next =>
      cases h
      exact headerMatch_reportsSpan hs
    next =>
      split at h <;> cases h <;> exact reportsSpan_of_out_eq_none hs

theorem addressStep_reportsSpan : ReportsSpan s (addressStep s) := reportsSpan_of_byte_span (.inl rfl) rfl

theorem lengthStep_reportsSpan (hs : s.out = none) : ReportsSpan s (lengthStep s) := by
  unfold lengthStep
  split
  next t h => exact (((accumulateByte_fieldOf h).setLengths _ _).goto _).emitField (by decide) _
  next t h => exact (accumulateByte_fieldOf h).held hs

theorem commandStep_reportsSpan (code : Byte) (cmd : Command) : ReportsSpan s (commandStep code cmd s) :=
  (((accumulate_fieldOf code 1 s).setCommand cmd).goto _).emitField (by simp) _

theorem ramAddressStep_reportsSpan (hs : s.out = none) : ReportsSpan s (ramAddressStep s) := by
  unfold ramAddressStep
  split
  next t h => exact ((accumulateByte_fieldOf h).goto _).emitField (by decide) _
  next t h => exact (accumulateByte_fieldOf h).held hs

theorem errorCodeStep_reportsSpan : ReportsSpan s (errorCodeStep s) :=
  ((accumulate_fieldOf s.inp.byte 1 s).goto _).emitField (by decide) _

theorem valueStep_reportsSpan (hs : s.out = none) : ReportsSpan s (valueStep s) := by
  unfold valueStep
  split
  next t h => exact ((accumulateByte_fieldOf h).goto _).emitField (by decide) _
  next t h => exact (accumulateByte_fieldOf h).held hs

theorem checksumStep_reportsSpan (hs : s.out = none) (h : checksumStep s = .next t) : ReportsSpan s t := by
  unfold checksumStep at h
  split at h
  next u hu =>
    split at h
    next =>
      cases h
      exact (((accumulateByte_fieldOf hu).setLengths _ _).goto _).emitField (by decide) _
    next => cases h
  next u hu =>
    cases h
    exact (accumulateByte_fieldOf hu).held hs

/-- Every state rule reports its element, if any, with the span of R74. -/
theorem stateRule_reportsSpan (hs : s.out = none) (h : stateRule s = .next t) : ReportsSpan s t := by
  cases hp : s.state <;> simp only [stateRule, hp] at h
  case header => exact headerStep_reportsSpan hs h
  case address => cases h; exact addressStep_reportsSpan
  case length => cases h; exact lengthStep_reportsSpan hs
  case command =>
    rw [exec_eq_commandStep] at h
    cases h
    exact commandStep_reportsSpan _ _
  case ramAddress => cases h; exact ramAddressStep_reportsSpan hs
  case errorCode => cases h; exact errorCodeStep_reportsSpan
  case value => cases h; exact valueStep_reportsSpan hs
  case checksum => exact checksumStep_reportsSpan hs h

end

/-! ### The step -/

/-- Every step reports its element, if any, with the span of R74: only the guard and the state rules report one. -/
theorem step_reportsSpan {s t : State} {c : Cycle} {rest : List Cycle} (hn : s.pending = c :: rest)
    (h : step s = .next t) : ReportsSpan (s.receive c rest) t := by
  rcases step_cases s with ⟨hnil, _⟩ | ⟨c', rest', hn', hstep⟩
  · rw [hnil] at hn; cases hn
  obtain ⟨rfl, rfl⟩ := List.cons.inj (hn'.symm.trans hn)
  rcases hstep with ⟨_, hreset⟩ | ⟨_, _, hidle⟩ | ⟨_, _, hrefused⟩ | ⟨_, hguard⟩ | ⟨_, hrule⟩
  · rw [hreset] at h; cases h
    exact reportsSpan_of_out_eq_none rfl
  · rw [hidle] at h; cases h
    exact reportsSpan_of_out_eq_none rfl
  · rw [hrefused] at h; cases h
  · rw [hguard] at h; cases h
    exact reportsSpan_of_byte_span (.inr rfl) rfl
  · exact stateRule_reportsSpan rfl (hrule ▸ h)

/-- Settles O45: the span a step reports, with the field's start time written out. -/
theorem elementSpans : Obligations.ElementSpans := by
  unfold Obligations.ElementSpans
  intro s t c rest e hn hstep he
  obtain ⟨hend, hstart⟩ := step_reportsSpan hn hstep e he
  refine ⟨hend, hstart.trans ?_⟩
  simp only [receive_fieldStart, State.receive_inp, ite_or]

end Sys2Proof.Machine
end

section
/-! The accumulator (spec/40_accumulator.md R81, R83). -/

namespace Sys2Proof.Machine

/-- Both cases of R81's first-byte test in one state: only the stale bytes and the start time depend on it. -/
theorem beginField_eq (s : State) (ts : Config.Time) :
    s.beginField ts = { s with
      accBytes := if s.accCount = 0#3 then [] else s.accBytes
      packetStartTime := if s.accCount = 0#3 then ts else s.packetStartTime } := by
  by_cases h : s.accCount = 0#3
  · simp only [beginField_first h, if_pos h]
  · simp only [beginField_later h, if_neg h]

/-- Settles O7: the field is begun, the byte appended, and the field then completed or held. -/
theorem accumulatePseudocode : Obligations.AccumulatePseudocode := by
  unfold Obligations.AccumulatePseudocode
  intro b ts n s
  dsimp only
  rcases accumulate_cases b ts n s with ⟨hcomplete, haccumulate⟩ | ⟨hshort, haccumulate⟩
  · rw [haccumulate, if_pos hcomplete, beginField_eq]
    simp only [State.appendByte, State.completeField, ne_eq, ite_not]
    rfl
  · rw [haccumulate, if_neg (Int.not_le.2 hshort), beginField_eq]
    simp only [State.appendByte, State.holdField]

/-- R83: "reached" is "at least", on the count that includes the byte. -/
theorem accumulate_fst_iff (b : Byte) (ts : Config.Time) (n : Int) (s : State) :
    (accumulate b ts n s).1 = true ↔ n ≤ (s.accCount.toNat : Int) + 1 := by
  rcases accumulate_cases b ts n s with ⟨hcomplete, haccumulate⟩ | ⟨hshort, haccumulate⟩
  · rw [haccumulate]
    exact iff_of_true rfl (by omega)
  · rw [haccumulate]
    exact iff_of_false Bool.false_ne_true (by omega)

/-- Settles O8: where the count before the byte is below `n`, "at least `n`" is "equal to `n`"; a required count of 0 or
less is reached by the first byte. -/
theorem fieldCompletionTest : Obligations.FieldCompletionTest := by
  unfold Obligations.FieldCompletionTest
  intro b ts n s
  refine ⟨accumulate_fst_iff b ts n s, ?_, ?_⟩
  · intro hbelow
    rw [accumulate_fst_iff]
    omega
  · intro hn hfirst
    rw [accumulate_single hfirst (by omega)]
    exact ⟨rfl, rfl⟩

end Sys2Proof.Machine
end

section
/-! One byte (spec/41_framing.md R92, R93): the reset cycle, the guard's condition, and the state rule that each packet state
runs. -/

namespace Sys2Proof.Machine

section
variable {s : State} {c : Cycle} {rest : List Cycle}

/-! ### The step -/

/-- A reset cycle resets the block, whatever else it presents (R146, R161). -/
theorem step_reset (hn : s.pending = c :: rest) (hrst : c.rst = true) :
    step s = .next (s.receive c rest).resetBlock := by
  simp only [step, takeCycle_cons hn, runCycle, State.receive_inp, hrst, if_true]

/-- The operation that takes the error is the state R93 writes out. -/
theorem overrunGuard_eq_frameErrorResult (s : State) : s.overrunGuard = frameErrorResult s := rfl

/-- Settles O12: a byte step tests the guard first, and runs the state rule where the guard does not fire. -/
theorem overrunGuardTakesTheError : Obligations.OverrunGuardTakesTheError := by
  unfold Obligations.OverrunGuardTakesTheError
  refine ⟨?_, ?_⟩
  · intro s c rest hover
    rw [step_overruns hover, overrunGuard_eq_frameErrorResult]
  · intro s c rest htakes
    exact step_takes htakes

/-! ### The premises of a byte step -/

/-- With no length declared the guard cannot fire (R93). -/
theorem takesByte_of_declaredLength_eq_zero (hn : s.pending = c :: rest) (hb : c.isByte = true)
    (hr : s.resetSeen = true) (h : s.declaredLength = 0#16) : s.TakesByte c rest := ⟨hn, hb, hr, .inl h⟩

/-- The invariant speaks of the registers alone, which receiving a cycle keeps. -/
theorem State.Inv.receive (h : s.Inv) (c : Cycle) (rest : List Cycle) : (s.receive c rest).Inv := { h with }

/-- In HEADER a byte that does not overrun finds no declared length: R31's other case is the forced error condition of R30,
which arms the guard. -/
theorem State.TakesByte.declaredLength_eq_zero_of_header (h : s.TakesByte c rest) (hinv : s.Inv)
    (hs : s.state = .header) : s.declaredLength = 0#16 := by
  rcases hinv.header_lengths hs with ⟨hdeclared, _⟩ | ⟨hdeclared, hconsumed, _⟩
  · exact hdeclared
  · have hrunning := h.running
    rw [hdeclared, hconsumed] at hrunning
    exact absurd hrunning (by decide)

end

/-! ### The accumulator's two outcomes, by the required count (R81, R83) -/

section
variable {s : State} {b : Byte} {ts : Config.Time} {n : Int}

theorem accumulate_of_le (h : n ≤ (s.accCount.toNat : Int) + 1) :
    accumulate b ts n s = (true, ((s.beginField ts).appendByte b).completeField (s.accCount.toNat + 1)) := by
  rcases accumulate_cases b ts n s with ⟨_, hdone⟩ | ⟨hshort, _⟩
  · exact hdone
  · omega

theorem accumulate_of_lt (h : (s.accCount.toNat : Int) + 1 < n) :
    accumulate b ts n s = (false, ((s.beginField ts).appendByte b).holdField (s.accCount.toNat + 1)) := by
  rcases accumulate_cases b ts n s with ⟨hdone, _⟩ | ⟨_, hheld⟩
  · omega
  · exact hheld

end

/-! ### The dispatch on the packet state (R92) -/

section
variable {s : State}

theorem stateRule_header (h : s.state = .header) : stateRule s = headerStep s := by simp only [stateRule, h]

theorem stateRule_address (h : s.state = .address) : stateRule s = .next (addressStep s) := by simp only [stateRule, h]

theorem stateRule_length (h : s.state = .length) : stateRule s = .next (lengthStep s) := by simp only [stateRule, h]

/-- In COMMAND every byte runs the step all command codes share (R106). -/
theorem stateRule_command (h : s.state = .command) :
    stateRule s = .next (commandStep (decodeByte s.inp.byte).code (decodeCommand s.inp.byte) s) := by
  simp only [stateRule, h, exec_eq_commandStep, decodeCommand]

theorem stateRule_ramAddress (h : s.state = .ramAddress) : stateRule s = .next (ramAddressStep s) := by
  simp only [stateRule, h]

theorem stateRule_errorCode (h : s.state = .errorCode) : stateRule s = .next (errorCodeStep s) := by
  simp only [stateRule, h]

theorem stateRule_value (h : s.state = .value) : stateRule s = .next (valueStep s) := by simp only [stateRule, h]

theorem stateRule_checksum (h : s.state = .checksum) : stateRule s = checksumStep s := by simp only [stateRule, h]

end

end Sys2Proof.Machine
end

section
/-! HEADER and ADDRESS (spec/41_framing.md R94 to R98). -/

namespace Sys2Proof.Machine

section
variable {s : State}

/-! ### The three cases of a HEADER byte (R94) -/

/-- R95's case. -/
theorem headerStep_of_match (h : headerByte? s.headerMatchIndex = some s.inp.byte) :
    headerStep s = .next (headerMatch s) := by
  simp only [headerStep, h, if_true]

/-- R96's case. -/
theorem headerStep_of_broken (hindex : s.headerMatchIndex.toNat ≤ 3) (hpartial : s.headerMatchIndex ≠ 0#3)
    (h : headerByte? s.headerMatchIndex ≠ some s.inp.byte) : headerStep s = .next s.forceError := by
  obtain ⟨b, hb⟩ : ∃ b, headerByte? s.headerMatchIndex = some b :=
    ⟨_, List.getElem?_eq_getElem (show s.headerMatchIndex.toNat < headerPattern.length from Nat.lt_succ_of_le hindex)⟩
  have hne : s.inp.byte ≠ b := fun heq => h (heq ▸ hb)
  simp only [headerStep, hb, if_neg hne, if_neg hpartial]

/-- R97's case. -/
theorem headerStep_of_idle (hindex : s.headerMatchIndex = 0#3) (h : s.inp.byte ≠ 0xFF#8) : headerStep s = .next s := by
  have hfirst : headerByte? s.headerMatchIndex = some 0xFF#8 := by rw [hindex]; rfl
  simp only [headerStep, hfirst, if_neg h, if_pos hindex]

/-! ### The matching byte (R95) -/

/-- The bytes a HEADER byte is appended to are the part of the pattern matched so far. -/
theorem beginField_accBytes_of_header (hinv : s.Inv) (hs : s.state = .header) (ts : Config.Time) :
    (s.beginField ts).accBytes = headerPattern.take s.headerMatchIndex.toNat := by
  rw [← hinv.header_count hs]
  by_cases hfirst : s.accCount = 0#3
  · rw [beginField_first hfirst, hfirst]
    rfl
  · rw [beginField_later hfirst]
    exact hinv.header_bytes hs hfirst

/-- The matching byte extends the matched part of the pattern by one, and the first one starts the element's span. -/
theorem appendByte_of_match (hinv : s.Inv) (hs : s.state = .header)
    (hmatch : headerByte? s.headerMatchIndex = some s.inp.byte) (ts : Config.Time) :
    (s.beginField ts).appendByte s.inp.byte = { s with
      accBytes := headerPattern.take (s.headerMatchIndex.toNat + 1)
      packetStartTime := if s.headerMatchIndex = 0#3 then ts else s.packetStartTime } := by
  have hbytes : (s.beginField ts).accBytes ++ [s.inp.byte] = headerPattern.take (s.headerMatchIndex.toNat + 1) := by
    rw [beginField_accBytes_of_header hinv hs, List.take_add_one, ← headerByte?, hmatch, Option.toList_some]
  rw [State.appendByte, hbytes, beginField_eq, hinv.header_count hs]

/-- The match index is no part of the field (R95 advances it before the byte is accumulated). -/
theorem beginField_setMatchIndex (s : State) (i : BitVec 3) (ts : Config.Time) :
    (s.setMatchIndex i).beginField ts = (s.beginField ts).setMatchIndex i := by
  rw [beginField_eq, beginField_eq]
  rfl

theorem appendByte_setMatchIndex (s : State) (i : BitVec 3) (b : Byte) :
    (s.setMatchIndex i).appendByte b = (s.appendByte b).setMatchIndex i := rfl

/-- At index 0 to 2 the required count 4 is not reached, and the byte is held. -/
theorem headerMatch_of_lt (hinv : s.Inv) (hs : s.state = .header)
    (hmatch : headerByte? s.headerMatchIndex = some s.inp.byte) (hlt : s.headerMatchIndex.toNat < 3) :
    headerMatch s = { s with
      headerMatchIndex := s.headerMatchIndex + 1#3
      accCount := s.accCount + 1#3
      accBytes := headerPattern.take (s.headerMatchIndex.toNat + 1)
      packetStartTime := if s.headerMatchIndex = 0#3 then s.inp.tStart else s.packetStartTime } := by
  have hcount : s.accCount.toNat < 3 := hinv.header_count hs ▸ hlt
  have hheld := accumulate_of_lt (b := s.inp.byte) (ts := s.inp.tStart) (n := 4)
    (s := s.setMatchIndex (s.headerMatchIndex + 1#3)) (by rw [State.setMatchIndex_accCount]; omega)
  have hsucc : BitVec.ofNat 3 (s.accCount.toNat + 1) = s.accCount + 1#3 := by
    rw [BitVec.ofNat_add, BitVec.ofNat_toNat, BitVec.setWidth_eq]
  simp only [headerMatch, State.accumulateByte, State.setMatchIndex_inp, hheld]
  rw [beginField_setMatchIndex, State.setMatchIndex_accCount, State.holdField, hsucc, appendByte_setMatchIndex,
    appendByte_of_match hinv hs hmatch]
  rfl

/-- The fourth byte completes the header; no length is declared, so nothing is counted. -/
theorem headerMatch_of_last (hinv : s.Inv) (hs : s.state = .header)
    (hmatch : headerByte? s.headerMatchIndex = some s.inp.byte) (hlast : s.headerMatchIndex = 3#3)
    (hdeclared : s.declaredLength = 0#16) :
    headerMatch s = { s with
      state := .address
      headerMatchIndex := 0#3
      accCount := 0#3
      accBytes := headerPattern
      fieldValue := 0x00FDFFFF#32
      out := some { kind := .header, tStart := s.packetStartTime, tEnd := s.inp.tEnd, payload := .empty } } := by
  have hcount : s.accCount = 3#3 := (hinv.header_count hs).trans hlast
  have hdone := accumulate_of_le (b := s.inp.byte) (ts := s.inp.tStart) (n := 4)
    (s := s.setMatchIndex (s.headerMatchIndex + 1#3)) (by rw [State.setMatchIndex_accCount, hcount]; decide)
  simp only [headerMatch, State.accumulateByte, State.setMatchIndex_inp, hdone]
  rw [beginField_setMatchIndex, appendByte_setMatchIndex, appendByte_of_match hinv hs hmatch, hlast]
  simp only [State.completeField, State.setMatchIndex_declaredLength, hdeclared, if_true]
  rfl

end

/-! ### The steps -/

/-- Settles O15: the matching byte's case of the HEADER rule, at the state that has received the byte. -/
theorem headerMatchingByte : Obligations.HeaderMatchingByte := by
  unfold Obligations.HeaderMatchingByte
  intro s c rest hinv htakes hs hmatch
  have hstep : step s = .next (headerMatch (s.receive c rest)) := calc
    step s = stateRule (s.receive c rest) := step_takes htakes
    _ = headerStep (s.receive c rest) := stateRule_header hs
    _ = .next (headerMatch (s.receive c rest)) := headerStep_of_match hmatch
  refine ⟨?_, ?_⟩
  · intro hlt
    rw [hstep, headerMatch_of_lt (hinv.receive c rest) hs hmatch hlt]
    rfl
  · intro hlast
    have hdeclared := htakes.declaredLength_eq_zero_of_header hinv hs
    rw [hstep, headerMatch_of_last (hinv.receive c rest) hs hmatch hlast hdeclared]
    rfl

/-- Settles O17: the idle case of the HEADER rule leaves the state that has received the byte. -/
theorem headerIdleScanning : Obligations.HeaderIdleScanning := by
  unfold Obligations.HeaderIdleScanning
  intro s c rest htakes hs hindex hbyte
  calc step s = stateRule (s.receive c rest) := step_takes htakes
    _ = headerStep (s.receive c rest) := stateRule_header hs
    _ = .next (s.receive c rest) := headerStep_of_idle hindex hbyte

/-- Settles O18: in ADDRESS no length is declared (R31), so the guard cannot fire and the ADDRESS rule runs. -/
theorem addressByte : Obligations.AddressByte := by
  unfold Obligations.AddressByte
  intro s c rest hinv hn hb hr hs
  have hdeclared : s.declaredLength = 0#16 := (hinv.early_lengths (.inl hs)).1
  calc step s = stateRule (s.receive c rest) := step_takes (takesByte_of_declaredLength_eq_zero hn hb hr hdeclared)
    _ = .next (addressStep (s.receive c rest)) := stateRule_address hs
    _ = _ := rfl

end Sys2Proof.Machine
end

section
/-! The successors of each packet state (spec/41_framing.md R91), row by row: what each state rule makes of the packet state,
then the step. -/

namespace Sys2Proof.Machine

section
variable {s t : State}

/-! ### The accumulator keeps the packet state -/

theorem accumulateByte_state (n : Int) (s : State) : (s.accumulateByte n).2.state = s.state := by
  rw [State.accumulateByte]
  rcases accumulate_cases s.inp.byte s.inp.tStart n s with ⟨_, hdone⟩ | ⟨_, hheld⟩
  · simp [hdone]
  · simp [hheld]

/-- A 2-byte field holds its first byte and is complete with the next. -/
theorem accumulateByte_two_cases (s : State) :
    (s.accCount = 0#3 ∧ ∃ u : State, s.accumulateByte 2 = (false, u) ∧ u.state = s.state) ∨
    (s.accCount ≠ 0#3 ∧ ∃ u : State, s.accumulateByte 2 = (true, u) ∧ u.state = s.state) := by
  by_cases hfirst : s.accCount = 0#3
  · have hheld := accumulate_first hfirst le_rfl s.inp.byte s.inp.tStart
    rw [← State.accumulateByte] at hheld
    exact .inl ⟨hfirst, _, hheld, rfl⟩
  · have hpos : s.accCount.toNat ≠ 0 := fun h => hfirst (BitVec.eq_of_toNat_eq h)
    have hdone := accumulate_of_le (s := s) (b := s.inp.byte) (ts := s.inp.tStart) (n := 2) (by omega)
    rw [← State.accumulateByte] at hdone
    exact .inr ⟨hfirst, _, hdone, by simp⟩

/-! ### The rows of R91 -/

/-- Only the fourth matching byte leaves HEADER; a byte that does not match stays there, also when it breaks a partial
match. -/
theorem headerStep_state (hinv : s.Inv) (hs : s.state = .header) (hdeclared : s.declaredLength = 0#16)
    (h : headerStep s = .next t) :
    t.state = if s.headerMatchIndex = 3#3 ∧ s.inp.byte = 0x00#8 then .address else .header := by
  by_cases hmatch : headerByte? s.headerMatchIndex = some s.inp.byte
  · obtain rfl := Host.Outcome.next.inj ((headerStep_of_match hmatch).symm.trans h)
    by_cases hlast : s.headerMatchIndex = 3#3
    · have hbyte : s.inp.byte = 0x00#8 := by
        rw [hlast] at hmatch
        exact (Option.some.inj hmatch).symm
      rw [headerMatch_of_last hinv hs hmatch hlast hdeclared, if_pos ⟨hlast, hbyte⟩]
    · have hne : s.headerMatchIndex.toNat ≠ 3 := fun heq => hlast (BitVec.eq_of_toNat_eq heq)
      have hlt : s.headerMatchIndex.toNat < 3 := Nat.lt_of_le_of_ne hinv.index_le hne
      rw [headerMatch_of_lt hinv hs hmatch hlt, if_neg (not_and_of_not_left _ hlast)]
      exact hs
  · have hnot : ¬ (s.headerMatchIndex = 3#3 ∧ s.inp.byte = 0x00#8) := by
      rintro ⟨hlast, hbyte⟩
      exact hmatch (by rw [hlast, hbyte]; rfl)
    rw [if_neg hnot]
    by_cases hfirst : s.headerMatchIndex = 0#3
    · have hbyte : s.inp.byte ≠ 0xFF#8 := fun hbyte => hmatch (by rw [hfirst, hbyte]; rfl)
      obtain rfl := Host.Outcome.next.inj ((headerStep_of_idle hfirst hbyte).symm.trans h)
      exact hs
    · obtain rfl := Host.Outcome.next.inj ((headerStep_of_broken hinv.index_le hfirst hmatch).symm.trans h)
      exact hs

theorem addressStep_state (s : State) : (addressStep s).state = .length := rfl

theorem lengthStep_state (hs : s.state = .length) :
    (lengthStep s).state = if s.accCount = 0#3 then .length else .command := by
  rcases accumulateByte_two_cases s with ⟨hfirst, u, hu, hstate⟩ | ⟨hsecond, u, hu, _⟩
  · rw [lengthStep, hu, if_pos hfirst]
    exact hstate.trans hs
  · rw [lengthStep, hu, if_neg hsecond]
    rfl

theorem commandStep_state (code : Byte) (cmd : Command) (s : State) :
    (commandStep code cmd s).state = nextAfterCommand cmd := rfl

theorem ramAddressStep_state (hs : s.state = .ramAddress) :
    (ramAddressStep s).state = if s.accCount = 0#3 then .ramAddress else .value := by
  rcases accumulateByte_two_cases s with ⟨hfirst, u, hu, hstate⟩ | ⟨hsecond, u, hu, _⟩
  · rw [ramAddressStep, hu, if_pos hfirst]
    exact hstate.trans hs
  · rw [ramAddressStep, hu, if_neg hsecond]
    rfl

/-- The test is on the lengths after the byte, which the move and the element leave as they are. -/
theorem errorCodeStep_state (s : State) :
    (errorCodeStep s).state =
      if ((errorCodeStep s).declaredLength.toNat : Int) - ((errorCodeStep s).consumedLength.toNat : Int) = 2 then .checksum
      else .value := by
  simp [errorCodeStep, State.onlyChecksumRemains]

/-- A complete chunk leaves no byte held, and the exit test is made; a held byte leaves a count of 1 or 2 (R19), and it is
not. -/
theorem valueStep_state (hinv : s.Inv) (hs : s.state = .value) :
    (valueStep s).state =
      if (valueStep s).accCount = 0#3 ∧
        ((valueStep s).consumedLength.toNat : Int) = ((valueStep s).declaredLength.toNat : Int) - 2 then .checksum
      else .value := by
  rcases accumulate_cases s.inp.byte s.inp.tStart s.chunkSize s with ⟨_, hdone⟩ | ⟨_, hheld⟩
  · rw [← State.accumulateByte] at hdone
    simp [valueStep, hdone, State.valueExit, hs]
  · rw [← State.accumulateByte] at hheld
    have hcount : s.accCount.toNat ≤ 1 := hinv.count_outside (by rw [hs]; decide)
    have hne : BitVec.ofNat 3 (s.accCount.toNat + 1) ≠ 0#3 := by
      rw [ne_eq, ← BitVec.toNat_inj, BitVec.toNat_ofNat, BitVec.toNat_ofNat]
      omega
    simp [valueStep, hheld, hne, hs]

theorem checksumStep_state (hs : s.state = .checksum) (h : checksumStep s = .next t) :
    t.state = if s.accCount = 0#3 then .checksum else .header := by
  rcases accumulateByte_two_cases s with ⟨hfirst, u, hu, hstate⟩ | ⟨hsecond, u, hu, _⟩
  · simp only [checksumStep, hu] at h
    cases h
    rw [if_pos hfirst]
    exact hstate.trans hs
  · simp only [checksumStep, hu] at h
    rw [if_neg hsecond]
    split at h <;> cases h
    rfl

end

/-! ### The step -/

/-- Settles O43: reset, idle cycle and guard by the step's own rules; a byte's successor by the row of its packet state. -/
theorem successorRelation : Obligations.SuccessorRelation := by
  unfold Obligations.SuccessorRelation
  intro s t c rest hinv hn hstep
  refine ⟨?_, ?_, ?_, ?_⟩
  · intro hrst
    rw [step_reset hn hrst] at hstep
    cases hstep
    rfl
  · intro hrst hv
    rw [step_idle hn hv hrst] at hstep
    cases hstep
    rfl
  · intro hover
    rw [step_overruns hover] at hstep
    cases hstep
    rfl
  · intro htakes
    have hinv' := hinv.receive c rest
    have hdeclared : (s.receive c rest).state = .header → s.declaredLength = 0#16 :=
      htakes.declaredLength_eq_zero_of_header hinv
    have hs : (s.receive c rest).state = s.state := rfl
    rw [step_takes htakes] at hstep
    generalize s.state = p at hs ⊢
    cases p with
    | header => exact headerStep_state hinv' hs (hdeclared hs) ((stateRule_header hs).symm.trans hstep)
    | address => rw [stateRule_address hs] at hstep; cases hstep; exact addressStep_state _
    | length => rw [stateRule_length hs] at hstep; cases hstep; exact lengthStep_state hs
    | command => rw [stateRule_command hs] at hstep; cases hstep; exact commandStep_state _ _ _
    | ramAddress => rw [stateRule_ramAddress hs] at hstep; cases hstep; exact ramAddressStep_state hs
    | errorCode => rw [stateRule_errorCode hs] at hstep; cases hstep; exact errorCodeStep_state _
    | value => rw [stateRule_value hs] at hstep; cases hstep; exact valueStep_state hinv' hs
    | checksum => exact checksumStep_state (s := s.receive c rest) hs ((stateRule_checksum hs).symm.trans hstep)

end Sys2Proof.Machine
end

section
/-! COMMAND (spec/42_command.md R106). -/

namespace Sys2Proof.Machine

/-! ### The byte and its code (R68, R69) -/

/-- The exact-match rows pair each instruction with its own code. -/
theorem code_of_mem_namedRows : ∀ row ∈ namedRows, row.2.code = row.1 := by decide

/-- An instruction keeps the byte it was decoded from: a row matches on its code, and the fallback row stores it. -/
theorem code_decodeByte (c : Byte) : (decodeByte c).code = c := by
  unfold decodeByte
  split
  next row hfind =>
    have hbyte : row.1 = c := by simpa using List.find?_some hfind
    exact (code_of_mem_namedRows row (List.mem_of_find?_eq_some hfind)).trans hbyte
  next => rfl

section
variable {s : State} {c : Cycle} {rest : List Cycle}

/-- In COMMAND nothing has been counted yet (R31), so the guard cannot fire. -/
theorem State.Inv.takesByte_of_command (hinv : s.Inv) (hn : s.pending = c :: rest) (hb : c.isByte = true)
    (hr : s.resetSeen = true) (hs : s.state = .command) : s.TakesByte c rest := by
  rcases takesByte_or_overruns hn hb hr with htakes | hover
  · exact htakes
  · have hreached : s.declaredLength.toNat ≤ 0 := by
      have h := hover.reached
      rwa [hinv.command_consumed hs] at h
    exact absurd (BitVec.eq_of_toNat_eq (Nat.le_zero.1 hreached)) hover.declared

/-- The step of a command byte: no field is in progress in COMMAND (R32), so the byte is a 1-byte field of its own. -/
theorem step_command (hinv : s.Inv) (htakes : s.TakesByte c rest) (hs : s.state = .command) :
    step s = .next (commandResult c.byte (decodeCommand c.byte) (nextAfterCommand (decodeCommand c.byte))
      (s.receive c rest)) := by
  have hcount : (s.receive c rest).accCount = 0#3 := hinv.count_zero (.inr (.inl hs))
  calc step s = stateRule (s.receive c rest) := step_takes htakes
    _ = .next (commandStep (decodeByte c.byte).code (decodeCommand c.byte) (s.receive c rest)) := stateRule_command hs
    _ = _ := by rw [code_decodeByte, commandStep_eq hcount]

end

/-- Settles O20: the byte is always accepted, and counted from the 0 that R31 gives `consumed_length` in COMMAND. -/
theorem commandByte : Obligations.CommandByte := by
  unfold Obligations.CommandByte
  intro s c rest hinv hn hb hr hs
  have hconsumed : (s.receive c rest).consumedLength = 0#17 := hinv.command_consumed hs
  rw [step_command hinv (hinv.takesByte_of_command hn hb hr hs) hs, commandResult, hconsumed]
  rfl

end Sys2Proof.Machine
end

section
/-! RAM_ADDRESS, one byte of VALUE, and CHECKSUM (spec/43_payload.md R126, R129 to R134). -/

namespace Sys2Proof.Machine

/-- The byte of a 1-byte field has been taken where none was held (R81, R82). -/
def onlyOfOne (s : State) : State :=
  { s with
    accBytes := [s.inp.byte]
    packetStartTime := s.inp.tStart
    fieldValue := s.inp.byte.setWidth 32
    consumedLength := s.counted 1 }

/-- The second byte of a 2-byte field that holds `b0` has been taken (R81): the counterpart of `firstOfTwo`. -/
def secondOfTwo (b0 : Byte) (s : State) : State :=
  { s with
    accBytes := [b0, s.inp.byte]
    accCount := 0#3
    fieldValue := (s.inp.byte ++ b0 : BitVec 16).setWidth 32
    consumedLength := s.counted 2 }

section
variable {s : State} {b0 : Byte}

@[simp] theorem onlyOfOne_field16 : (onlyOfOne s).field16 = s.inp.byte.setWidth 16 := setWidth_setWidth_byte _

@[simp] theorem secondOfTwo_field16 : (secondOfTwo b0 s).field16 = s.inp.byte ++ b0 := setWidth_setWidth_two _

/-! ### The accumulator on fields of one and of two bytes -/

theorem accumulateByte_single {n : Int} (h : s.accCount = 0#3) (hn : n ≤ 1) :
    s.accumulateByte n = (true, onlyOfOne s) := by
  rw [State.accumulateByte, accumulate_single h hn, onlyOfOne, h]
  rfl

theorem accumulateByte_first {n : Int} (h : s.accCount = 0#3) (hn : 2 ≤ n) :
    s.accumulateByte n = (false, firstOfTwo s) := by
  rw [State.accumulateByte, accumulate_first h hn]
  rfl

theorem accumulateByte_second {n : Int} (h : s.accCount = 1#3) (hb : s.accBytes = [b0]) (hn : n ≤ 2) :
    s.accumulateByte n = (true, secondOfTwo b0 s) := by
  rw [State.accumulateByte, accumulate_second h hb hn]
  rfl

/-! ### RAM_ADDRESS (R126) -/

theorem ramAddressStep_first (h : s.accCount = 0#3) : ramAddressStep s = firstOfTwo s := by
  simp only [ramAddressStep, accumulateByte_first h le_rfl]

theorem ramAddressStep_second (h : s.accCount = 1#3) (hb : s.accBytes = [b0]) :
    ramAddressStep s =
      ((secondOfTwo b0 s).goto .value).emitField .ramAddress (.int (s.inp.byte ++ b0)) := by
  simp only [ramAddressStep, accumulateByte_second h hb le_rfl, secondOfTwo_field16]

/-! ### VALUE (R129 to R131) -/

/-- Where VALUE goes after a completed chunk (R131). -/
def State.afterChunk (s : State) : PacketState :=
  if (s.consumedLength.toNat : Int) = (s.declaredLength.toNat : Int) - 2 then .checksum else .value

/-- With two bytes or more before the checksum the chunk takes two (R130). -/
theorem valueStep_first (h : s.accCount = 0#3) (hremaining : 2 ≤ s.remaining) : valueStep s = firstOfTwo s := by
  have hsize : 2 ≤ s.chunkSize := le_min le_rfl hremaining
  simp only [valueStep, accumulateByte_first h hsize]

/-- Every completed chunk is reported, and the exit test is made on the count that includes it. -/
theorem valueStep_of_complete {t : State} (h : s.accumulateByte s.chunkSize = (true, t)) (ht : t.state = .value) :
    valueStep s = (t.goto t.afterChunk).emitField .value (.int t.field16) := by
  simp only [valueStep, h, State.valueExit, decide_eq_true_eq, ht, State.afterChunk]

/-- With fewer than two bytes before the checksum the required count is at most 1, and the first byte completes the chunk
(R83, R130). -/
theorem valueStep_single (hs : s.state = .value) (h : s.accCount = 0#3) (hremaining : s.remaining ≤ 1) :
    valueStep s =
      ((onlyOfOne s).goto (onlyOfOne s).afterChunk).emitField .value (.int (s.inp.byte.setWidth 16)) := by
  have hsize : s.chunkSize ≤ 1 := (min_le_right _ _).trans hremaining
  rw [valueStep_of_complete (accumulateByte_single h hsize) hs, onlyOfOne_field16]

/-- The second byte completes the chunk whatever remains: no chunk is longer than 2 (R130). -/
theorem valueStep_second (hs : s.state = .value) (h : s.accCount = 1#3) (hb : s.accBytes = [b0]) :
    valueStep s =
      ((secondOfTwo b0 s).goto (secondOfTwo b0 s).afterChunk).emitField .value (.int (s.inp.byte ++ b0)) := by
  have hsize : s.chunkSize ≤ 2 := min_le_left _ _
  rw [valueStep_of_complete (accumulateByte_second h hb hsize) hs, secondOfTwo_field16]

/-! ### CHECKSUM (R133, R134) -/

theorem checksumStep_first (h : s.accCount = 0#3) : checksumStep s = .next (firstOfTwo s) := by
  simp only [checksumStep, accumulateByte_first h le_rfl]

theorem checksumStep_second (h : s.accCount = 1#3) (hb : s.accBytes = [b0]) :
    checksumStep s =
      .next ((((secondOfTwo b0 s).setLengths 0#16 0#17).goto .header).emitField .checksum (.bytes s.inp.byte b0)) := by
  simp only [checksumStep, accumulateByte_second h hb le_rfl]
  rfl

end

/-! ### The premises of the two bytes -/

section
variable {s : State} {c c0 c1 : Cycle} {rest : List Cycle}

/-- A held byte counts nothing yet, so the guard lets the second byte of a field pass where it let the first. -/
theorem State.TakesByte.firstOfTwo (h : s.TakesByte c0 (c1 :: rest)) (hb : c1.isByte = true) :
    (firstOfTwo (s.receive c0 (c1 :: rest))).TakesByte c1 rest := ⟨rfl, hb, h.reset, h.running⟩

/-- In RAM_ADDRESS the command byte alone has been counted: a declared length of 1 is reached. -/
theorem State.Inv.overruns_of_ramAddress (hinv : s.Inv) (hn : s.pending = c :: rest) (hb : c.isByte = true)
    (hr : s.resetSeen = true) (hs : s.state = .ramAddress) (hdeclared : s.declaredLength = 1#16) :
    s.Overruns c rest := by
  have hconsumed := hinv.after_command (.inl hs)
  rw [hdeclared] at hconsumed
  exact ⟨hn, hb, hr, by rw [hdeclared]; decide, by rw [hdeclared, hconsumed]; decide⟩

/-- Any other declared length is not reached by the command byte alone. -/
theorem State.Inv.takesByte_of_ramAddress (hinv : s.Inv) (hn : s.pending = c :: rest) (hb : c.isByte = true)
    (hr : s.resetSeen = true) (hs : s.state = .ramAddress) (hdeclared : s.declaredLength ≠ 1#16) :
    s.TakesByte c rest := by
  by_cases hzero : s.declaredLength = 0#16
  · exact takesByte_of_declaredLength_eq_zero hn hb hr hzero
  · have hconsumed := hinv.after_command (.inl hs)
    rw [if_neg hzero] at hconsumed
    have hlt : s.consumedLength.toNat < s.declaredLength.toNat := by
      rw [hconsumed]
      bv_omega
    exact ⟨hn, hb, hr, .inr hlt⟩

/-- The two address bytes are counted on top of the command byte. -/
theorem State.Inv.counted_two_of_ramAddress (hinv : s.Inv) (hs : s.state = .ramAddress) :
    s.counted 2 = if s.declaredLength = 0#16 then 0#17 else 3#17 := by
  rw [State.counted, hinv.after_command (.inl hs)]
  by_cases hzero : s.declaredLength = 0#16
  · simp only [if_pos hzero]
  · simp only [if_neg hzero]
    decide

end

/-! ### The steps -/

/-- Settles O26: the guard fires exactly where the command byte alone reaches the declared length, and the first byte leaves
the registers it tests unchanged. -/
theorem ramAddressField : Obligations.RamAddressField := by
  unfold Obligations.RamAddressField
  intro s c0 c1 rest hinv hr hn hb0 hb1 hs hcount
  refine ⟨?_, ?_⟩
  · intro hdeclared
    exact step_overruns (hinv.overruns_of_ramAddress hn hb0 hr hs hdeclared)
  · intro hdeclared t
    have htakes := hinv.takesByte_of_ramAddress hn hb0 hr hs hdeclared
    refine ⟨?_, ?_⟩
    · calc step s = stateRule (s.receive c0 (c1 :: rest)) := step_takes htakes
        _ = .next (ramAddressStep (s.receive c0 (c1 :: rest))) := stateRule_ramAddress hs
        _ = .next t := congrArg _ (ramAddressStep_first hcount)
    · have hcounted := hinv.counted_two_of_ramAddress hs
      calc step t = stateRule (t.receive c1 rest) := step_takes (htakes.firstOfTwo hb1)
        _ = .next (ramAddressStep (t.receive c1 rest)) := stateRule_ramAddress hs
        _ = .next (((secondOfTwo c0.byte (t.receive c1 rest)).goto .value).emitField .ramAddress
              (.int (c1.byte ++ c0.byte))) := congrArg _ (ramAddressStep_second rfl rfl)
        _ = _ := by rw [← hcounted]; rfl

/-- Settles O28: with no byte held the remaining count decides between a held byte and a 1-byte chunk; a held byte makes
the next one complete a chunk. -/
theorem valueByte : Obligations.ValueByte := by
  unfold Obligations.ValueByte
  intro s c rest _ htakes hs
  have hstep : step s = .next (valueStep (s.receive c rest)) := (step_takes htakes).trans (stateRule_value hs)
  refine ⟨?_, ?_, ?_⟩
  · intro hcount hremaining
    rw [hstep, valueStep_first (s := s.receive c rest) hcount hremaining]
  · intro hcount hremaining
    rw [hstep, valueStep_single (s := s.receive c rest) hs hcount hremaining]
    rfl
  · intro b0 hcount hbytes
    rw [hstep, valueStep_second (s := s.receive c rest) hs hcount hbytes]
    rfl

/-- Settles O33: the CHECKSUM rule holds the first byte, and on the second it has both and closes the packet. -/
theorem checksumField : Obligations.ChecksumField := by
  unfold Obligations.ChecksumField
  intro s c0 c1 rest htakes hb1 hs hcount t
  refine ⟨?_, ?_⟩
  · calc step s = stateRule (s.receive c0 (c1 :: rest)) := step_takes htakes
      _ = checksumStep (s.receive c0 (c1 :: rest)) := stateRule_checksum hs
      _ = .next t := checksumStep_first hcount
  · calc step t = stateRule (t.receive c1 rest) := step_takes (htakes.firstOfTwo hb1)
      _ = checksumStep (t.receive c1 rest) := stateRule_checksum hs
      _ = .next ((((secondOfTwo c0.byte (t.receive c1 rest)).setLengths 0#16 0#17).goto .header).emitField .checksum
            (.bytes c1.byte c0.byte)) := checksumStep_second rfl rfl
      _ = _ := rfl

end Sys2Proof.Machine
end

section
/-! Reset, start-up and the end of the stream (spec/70_reset_and_hazards.md R161, R163, R166). -/

namespace Sys2Proof.Machine

section
variable {s : State} {c : Cycle} {rest : List Cycle}

/-! ### The end of the stream -/

/-- When nothing is pending, the port shows what it showed before with `rst` and `in_valid` low (R34). -/
theorem takeCycle_nil (hn : s.pending = []) :
    s.takeCycle = s.receive { s.inp with rst := false, valid := false } [] := by
  simp only [State.takeCycle, State.receive, hn]

/-- A step after the end of the stream is an idle cycle (R44, R166). -/
theorem step_nil (hn : s.pending = []) :
    step s = .next (s.receive { s.inp with rst := false, valid := false } []) := by
  rw [step, takeCycle_nil hn]
  exact runCycle_idle rfl rfl

/-- A cycle received after the end of the stream reaches the ports only. -/
theorem receive_registers_nil (hn : s.pending = []) (c : Cycle) : (s.receive c []).registers = s.registers := by
  simp only [State.receive, State.registers, hn]

/-- R166: every step after the end of the stream is idle, so a run of them reports nothing and keeps the registers. -/
theorem collect_nil (hn : s.pending = []) (k : Nat) :
    ∃ t : State, collect k s = some ([], t) ∧ t.registers = s.registers := by
  induction k generalizing s with
  | zero => exact ⟨s, collect_zero s, rfl⟩
  | succ k ih =>
    obtain ⟨t, hrun, hregs⟩ := ih (s := s.receive { s.inp with rst := false, valid := false } []) rfl
    refine ⟨t, ?_, hregs.trans (receive_registers_nil hn _)⟩
    simp only [collect_next (step_nil hn), hrun, State.receive_out, Option.map_some, Option.toList_none, List.append_nil]

/-! ### Before the first reset -/

/-- A byte that finds no reset behind it is refused (R163). -/
theorem step_before_reset (hn : s.pending = c :: rest) (hb : c.isByte = true) (hr : s.resetSeen = false) :
    step s = .refused .beforeFirstReset := by
  obtain ⟨hv, hrst⟩ := (isByte_iff c).1 hb
  simp only [step, takeCycle_cons hn, runCycle, State.receive_inp, State.receive_resetSeen, hv, hrst, hr, if_true,
    Bool.false_eq_true, if_false]

end

/-- Settles O38: the run keeps `registers`, which holds every register, the reset mark and the stream still to come. -/
theorem endOfStream : Obligations.EndOfStream := by
  unfold Obligations.EndOfStream
  intro s k hn
  obtain ⟨t, hrun, hregs⟩ := collect_nil hn k
  simp only [State.registers, State.mk.injEq, true_and] at hregs
  obtain ⟨hstate, hbytes, hcount, hindex, hvalue, hdeclared, hconsumed, hcommand, htime, hseen, hpending⟩ := hregs
  exact ⟨t, hrun, hstate, hbytes, hcount, hindex, hvalue, hdeclared, hconsumed, hcommand, htime, hseen, hpending.trans hn⟩

/-- Settles O34: the step is `resetBlock`, which takes every register from `State.reset` and keeps the port and the rest of
the stream. -/
theorem resetCycle : Obligations.ResetCycle := by
  unfold Obligations.ResetCycle
  intro s c rest hn hrst
  refine ⟨(s.receive c rest).resetBlock, step_reset hn hrst, ?_⟩
  simp [State.reset]

/-- Settles O36: of the three branches of a cycle, a byte with the reset mark low reaches the refusal. -/
theorem byteBeforeFirstResetRefused : Obligations.ByteBeforeFirstResetRefused := by
  unfold Obligations.ByteBeforeFirstResetRefused
  intro s c rest hn hb hr
  exact step_before_reset hn hb hr

end Sys2Proof.Machine
end

section
/-! Decoding and encoding (spec/30_encoding.md R68 to R71): a byte and the instruction it stands for. -/

namespace Sys2Proof.Machine

/-- The exact-match rows find the named instructions, and no row finds a code the fallback row may keep (R69). -/
theorem decodeByte_code {i : Instr} (hwf : i.wellFormed = true) : decodeByte i.code = i := by
  cases i with
  | unknown code =>
    have hfree : code ∉ namedCodes := by simpa [Instr.wellFormed] using hwf
    exact decodeByte_of_not_mem_namedCodes hfree
  | _ => rfl

/-- Settles O1, by cases on the instruction: the 13 named ones by their row, Unknown by the fallback row. -/
theorem decodeEncodeAgree : Obligations.DecodeEncodeAgree := by
  unfold Obligations.DecodeEncodeAgree
  intro i rest hwf
  rw [encode, List.singleton_append, decode, decodeByte_code hwf]

theorem wellFormed_of_mem_namedRows : ∀ row ∈ namedRows, row.2.wellFormed = true := by decide

/-- The fallback row is reached only by a byte that no exact-match row finds. -/
theorem decodeByte_wellFormed (c : Byte) : (decodeByte c).wellFormed = true := by
  by_cases hnamed : c ∈ namedCodes
  · obtain ⟨row, hrow, hcode⟩ := List.mem_map.1 (namedRows_map_fst ▸ hnamed)
    have hfound : (namedRows.find? fun row => row.1 == c).isSome = true :=
      List.find?_isSome.2 ⟨row, hrow, beq_iff_eq.2 hcode⟩
    obtain ⟨found, hfound⟩ := Option.isSome_iff_exists.1 hfound
    rw [decodeByte, hfound]
    exact wellFormed_of_mem_namedRows found (List.mem_of_find?_eq_some hfound)
  · rw [decodeByte_of_not_mem_namedCodes hnamed]
    simpa [Instr.wellFormed] using hnamed

/-- Settles O2: the byte is the code of what it decodes to, and a well-formed instruction is what its code decodes to. -/
theorem everyByteIsAnInstruction : Obligations.EveryByteIsAnInstruction := by
  unfold Obligations.EveryByteIsAnInstruction
  intro b rest
  refine ⟨decodeByte b, rfl, decodeByte_wellFormed b, by rw [encode, code_decodeByte], ?_⟩
  intro j hwf hencode
  have hcode : j.code = b := List.singleton_inj.1 hencode
  rw [← hcode, decodeByte_code hwf]

/-- Settles O5: six closed decodings, by evaluation. -/
theorem sampleBytesDecode : Obligations.SampleBytesDecode := by
  unfold Obligations.SampleBytesDecode
  decide

end Sys2Proof.Machine
end

section
/-! The signals of the output port and the element record (spec/20_memory.md R43): the record is read back from them. -/

namespace Sys2Proof.Machine

/-- The Command variant with a given `out_cmd` code (R67). -/
def commandOfCode (code : BitVec 4) : Option Command :=
  [.unknown, .ping, .read, .write, .regWrite, .action, .factoryReset, .reboot, .clear, .status, .syncRead, .syncWrite,
    .bulkRead, .bulkWrite][code.toNat]?

/-- The element kind with given `out_kind` and `out_cmd` (R73). -/
def kindOfCodes (kind cmd : BitVec 4) : Option Kind :=
  match kind.toNat with
  | 0 => some .header
  | 1 => some .address
  | 2 => some .length
  | 3 => (commandOfCode cmd).map .command
  | 4 => some .ramAddress
  | 5 => some .errorCode
  | 6 => some .value
  | 7 => some .checksum
  | 8 => some .frameError
  | _ => none

/-- The payload with given `out_ptag`, `out_int`, `out_b0` and `out_b1` (R43). -/
def payloadOfSignals (tag : BitVec 2) (int : BitVec 16) (b0 b1 : Byte) : Payload :=
  if tag = 0#2 then .empty else if tag = 1#2 then .int int else .bytes b0 b1

theorem commandOfCode_outCmd (cmd : Command) : commandOfCode (outCmd cmd) = some cmd := by
  cases cmd <;> rfl

theorem kindOfCodes_outKind (k : Kind) : kindOfCodes (outKind k) (kindCmd k) = some k := by
  cases k with
  | command cmd => exact congrArg (Option.map Kind.command) (commandOfCode_outCmd cmd)
  | _ => rfl

theorem payloadOfSignals_payload (p : Payload) : payloadOfSignals p.tag p.outInt p.outB0 p.outB1 = p := by
  cases p <;> rfl

/-- Nothing of the record is lost on the port: kind and payload are read back from their signals. -/
theorem signals_injective : Function.Injective Element.signals := by
  intro e e' h
  obtain ⟨k, ts, te, p⟩ := e
  obtain ⟨k', ts', te', p'⟩ := e'
  simp only [Element.signals, OutSignals.mk.injEq] at h
  obtain ⟨hkind, hcmd, rfl, rfl, htag, hint, hb0, hb1⟩ := h
  have hk : some k = some k' := by rw [← kindOfCodes_outKind k, hkind, hcmd, kindOfCodes_outKind]
  have hp : p = p' := by rw [← payloadOfSignals_payload p, htag, hint, hb0, hb1, payloadOfSignals_payload]
  rw [Option.some.inj hk, hp]

theorem kindCmd_of_not_command {k : Kind} (h : ∀ cmd : Command, k ≠ .command cmd) : kindCmd k = 0#4 := by
  cases k with
  | command cmd => exact absurd rfl (h cmd)
  | _ => rfl

/-- Settles O6: the record is read back from the signals; their values are the table's, by the form of the payload. -/
theorem signalsCarryTheElement : Obligations.SignalsCarryTheElement := by
  unfold Obligations.SignalsCarryTheElement
  refine ⟨fun e e' h => signals_injective h, ⟨rfl, rfl, rfl, fun _ => rfl, rfl, rfl, rfl, rfl, rfl⟩, ?_, ?_⟩
  · rintro ⟨k, ts, te, p⟩
    refine ⟨rfl, rfl, rfl, ?_, kindCmd_of_not_command, ?_, ?_, ?_⟩
    · rintro cmd rfl
      rfl
    · rintro rfl
      exact ⟨rfl, rfl, rfl, rfl⟩
    · rintro n rfl
      exact ⟨rfl, rfl, rfl, rfl⟩
    · rintro b0 b1 rfl
      exact ⟨rfl, rfl, rfl, rfl⟩
  · intro s
    refine ⟨fun h => ?_, fun e h => ?_⟩
    · rw [State.outPort, h, Option.map_none]
    · rw [State.outPort, h, Option.map_some]

end Sys2Proof.Machine
end

section
/-! The order of a step (spec/60_exceptions.md R146, spec/41_framing.md R92, R93), and what of the lengths it reads. -/

namespace Sys2Proof.Machine

/-- Settles O10: the cases of a step, each with the tests of the chain that lead to it. -/
theorem stepPriority : Obligations.StepPriority := by
  unfold Obligations.StepPriority
  intro s c rest hn r
  rcases step_cases s with ⟨hnil, _⟩ | ⟨c', rest', hn', hstep⟩
  · rw [hnil] at hn; cases hn
  obtain ⟨rfl, rfl⟩ := List.cons.inj (hn'.symm.trans hn)
  rcases hstep with ⟨hrst, hstep⟩ | ⟨hrst, hv, hstep⟩ | ⟨hb, hr, hstep⟩ | ⟨hover, hstep⟩ | ⟨htakes, hstep⟩
  · rw [if_pos hrst, hstep]
  · rw [if_neg (by simp [hrst]), if_pos hv, hstep]
  · obtain ⟨hv, hrst⟩ := (isByte_iff _).1 hb
    rw [if_neg (by simp [hrst]), if_neg (by simp [hv]), if_pos hr, hstep]
  · obtain ⟨hv, hrst⟩ := (isByte_iff _).1 hover.byte
    rw [if_neg (by simp [hrst]), if_neg (by simp [hv]), if_neg (by simp [hover.reset]),
      if_pos ⟨hover.declared, hover.reached⟩, hstep]
  · obtain ⟨hv, hrst⟩ := (isByte_iff _).1 htakes.byte
    have hguard : ¬ (s.declaredLength ≠ 0#16 ∧ s.declaredLength.toNat ≤ s.consumedLength.toNat) := by
      rw [← overrun_iff, htakes.overrun]
      exact Bool.false_ne_true
    rw [if_neg (by simp [hrst]), if_neg (by simp [hv]), if_neg (by simp [htakes.reset]), if_neg hguard, hstep]
    rfl

/-- Settles O11: the state rule of COMMAND executes the decoded byte. -/
theorem stepRunsDecodedInstruction : Obligations.StepRunsDecodedInstruction := by
  unfold Obligations.StepRunsDecodedInstruction
  intro s c rest i htakes hs hdecode
  obtain ⟨hi, _⟩ := DecodeResult.instr.inj hdecode
  rw [step_takes htakes, ← hi]
  simp only [stateRule, State.receive_state, hs, State.receive_inp]

/-- Settles O14: taking the error writes both lengths and reads neither. -/
theorem forcedLengthsDoNotShow : Obligations.ForcedLengthsDoNotShow := by
  unfold Obligations.ForcedLengthsDoNotShow
  intro s c rest d n hover hover'
  calc step (s.setLengths d n) = .next ((s.setLengths d n).receive c rest).overrunGuard := step_overruns hover'
    _ = .next (s.receive c rest).overrunGuard := rfl
    _ = step s := (step_overruns hover).symm

end Sys2Proof.Machine
end

section
/-! A field of several bytes (spec/40_accumulator.md R81 to R86, spec/30_encoding.md R63). -/

namespace Sys2Proof.Machine

/-- The bytes `bs` have been appended to `acc_bytes` (R85). -/
def State.appendBytes (bs : List Byte) (s : State) : State := { s with accBytes := s.accBytes ++ bs }

/-- Every call but the last holds its byte; the last completes the field with the bytes held before and those fed now, and
the first alone can set the start time. -/
theorem accumulateAll_cons (x : Byte × Config.Time) (xs : List (Byte × Config.Time)) (s : State) {k : Nat}
    (hk : k = s.accCount.toNat + xs.length + 1) (hfits : k ≤ 7) :
    accumulateAll k (x :: xs) s =
      (List.replicate xs.length false ++ [true],
        ((s.beginField x.2).appendBytes ((x :: xs).map Prod.fst)).completeField k) := by
  induction xs generalizing x s with
  | nil =>
    simp only [List.length_nil, Nat.add_zero] at hk
    simp only [accumulateAll, accumulate_of_le (s := s) (n := k) (by omega), ← hk]
    rfl
  | cons y ys ih =>
    have hlength : (y :: ys).length = ys.length + 1 := rfl
    have hheld := accumulate_of_lt (s := s) (b := x.1) (ts := x.2) (n := k) (by omega)
    have hcount : (BitVec.ofNat 3 (s.accCount.toNat + 1)).toNat = s.accCount.toNat + 1 := by
      rw [BitVec.toNat_ofNat]
      omega
    have hlater : BitVec.ofNat 3 (s.accCount.toNat + 1) ≠ 0#3 := by
      intro h
      rw [h] at hcount
      exact Nat.succ_ne_zero _ hcount.symm
    rw [accumulateAll, hheld]
    simp only
    rw [ih y _ (by rw [State.holdField_accCount, hcount]; omega), beginField_later (by exact hlater)]
    simp only [State.appendBytes, State.appendByte, State.holdField, State.completeField, List.map_cons,
      List.append_assoc, List.cons_append, List.nil_append, hlength, List.replicate_succ]

/-- The first byte is the least significant (R63). -/
theorem littleEndian_eq_head_add_tail (bs : List Byte) :
    littleEndian bs = (bs[0]?.getD 0).toNat + 256 * littleEndian bs.tail := by
  cases bs <;> rfl

/-- The value of a field of up to 4 bytes, written out. -/
theorem littleEndian_of_length_le_four {bs : List Byte} (h : bs.length ≤ 4) :
    littleEndian bs = (bs[0]?.getD 0).toNat + 256 * (bs[1]?.getD 0).toNat + 65536 * (bs[2]?.getD 0).toNat +
      16777216 * (bs[3]?.getD 0).toNat := by
  have hrest : bs.tail.tail.tail.tail = [] := List.length_eq_zero_iff.1 (by simp only [List.length_tail]; omega)
  rw [littleEndian_eq_head_add_tail bs, littleEndian_eq_head_add_tail bs.tail, littleEndian_eq_head_add_tail bs.tail.tail,
    littleEndian_eq_head_add_tail bs.tail.tail.tail, hrest, littleEndian_nil]
  simp only [List.getElem?_tail, Nat.reduceAdd]
  omega

/-- Settles O9: the run of the accumulator from its first byte, and the value of up to four bytes, which fits 32 bits. -/
theorem fieldAssembly : Obligations.FieldAssembly := by
  unfold Obligations.FieldAssembly
  intro s x xs hfirst hlength byte
  have hvalue : littleEndian ((x :: xs).map Prod.fst) =
      byte 0 + 256 * byte 1 + 65536 * byte 2 + 16777216 * byte 3 :=
    littleEndian_of_length_le_four (by rw [List.length_map, List.length_cons]; omega)
  have hbyte (k : Nat) : byte k < 256 := BitVec.isLt _
  refine ⟨BitVec.ofNat 32 (littleEndian ((x :: xs).map Prod.fst)), ?_, ?_⟩
  · have h0 := hbyte 0
    have h1 := hbyte 1
    have h2 := hbyte 2
    have h3 := hbyte 3
    rw [BitVec.toNat_ofNat, hvalue]
    omega
  · have hrun := accumulateAll_cons x xs s (k := xs.length + 1) (by rw [hfirst]; simp) (by omega)
    rw [Nat.cast_succ] at hrun
    rw [hrun, beginField_first hfirst]
    rfl

end Sys2Proof.Machine
end

section
/-! The meanings of the command codes as instructions (spec/42_command.md R106 to R120). -/

namespace Sys2Proof.Machine

/-- With no field in progress, an instruction gives the state R106 writes out, on the way of its class. -/
theorem exec_eq_commandResult {s : State} (h : s.accCount = 0#3) (i : Instr) :
    exec i s = .next (commandResult i.code i.command (nextAfterCommand i.command) s) := by
  rw [exec_eq_commandStep, commandStep_eq h]

/-- Settles O22: each instruction's code, variant and way on, in the one lemma about them all. -/
theorem classRCommands : Obligations.ClassRCommands := by
  unfold Obligations.ClassRCommands
  intro s h
  exact ⟨exec_eq_commandResult h .read, exec_eq_commandResult h .write, exec_eq_commandResult h .regWrite,
    exec_eq_commandResult h .action, exec_eq_commandResult h .syncRead, exec_eq_commandResult h .syncWrite,
    exec_eq_commandResult h .bulkRead, exec_eq_commandResult h .bulkWrite⟩

/-- Settles O23: the lemma about all instructions, at Status. -/
theorem statusCommand : Obligations.StatusCommand := by
  unfold Obligations.StatusCommand
  intro s h
  exact exec_eq_commandResult h .status

/-- Settles O24: the same lemma at Unknown, which keeps its code. -/
theorem unknownCommand : Obligations.UnknownCommand := by
  unfold Obligations.UnknownCommand
  intro code s h
  exact exec_eq_commandResult h (.unknown code)

/-- In every state the command byte completes its field: a required count of 1 is reached whatever is held (R83). -/
theorem commandStep_eq_completeField (code : Byte) (cmd : Command) (s : State) :
    commandStep code cmd s =
      (((((s.beginField s.inp.tStart).appendByte code).completeField (s.accCount.toNat + 1)).setCommand cmd).goto
        (nextAfterCommand cmd)).emitField (.command cmd) (.int (code.setWidth 16)) := by
  rw [commandStep, accumulate_of_le (by omega)]

/-- Settles O25: the completed field and the updates after it, field by field. -/
theorem commandsFrame : Obligations.CommandsFrame := by
  unfold Obligations.CommandsFrame
  intro i s
  refine ⟨_, exec_eq_commandStep i s, ?_⟩
  rw [commandStep_eq_completeField]
  refine ⟨rfl, rfl, rfl, by simp, by simp, by simp, by simp, by simp, ?_, ?_⟩
  · intro hdeclared
    simp [hdeclared]
  · intro hlater
    rw [beginField_later hlater]
    rfl

end Sys2Proof.Machine
end

section
/-! What a state rule leaves unchanged (spec/10_state.md sections 2 to 5), in every state. -/

namespace Sys2Proof.Machine

/-- The byte on the port, the stream and the reset mark, which no state rule writes. -/
structure State.SameInput (s t : State) : Prop where
  inp : t.inp = s.inp
  pending : t.pending = s.pending
  resetSeen : t.resetSeen = s.resetSeen

/-- What the accumulator leaves unchanged too, up to the packet state, which the rules write after it (R81). -/
structure State.FieldFrame (s t : State) : Prop extends s.SameInput t where
  headerMatchIndex : t.headerMatchIndex = s.headerMatchIndex
  declaredLength : t.declaredLength = s.declaredLength
  currentCommand : t.currentCommand = s.currentCommand

theorem accumulate_fieldFrame (b : Byte) (ts : Config.Time) (n : Int) (s : State) :
    s.FieldFrame (accumulate b ts n s).2 := by
  rcases accumulate_cases b ts n s with ⟨_, h⟩ | ⟨_, h⟩
  · rw [h]
    exact ⟨⟨by simp, by simp, by simp⟩, by simp, by simp, by simp⟩
  · rw [h]
    exact ⟨⟨by simp, by simp, by simp⟩, by simp, by simp, by simp⟩

theorem accumulateByte_fieldFrame {n : Int} {s t : State} {done : Bool} (h : s.accumulateByte n = (done, t)) :
    s.FieldFrame t := by
  have hframe := accumulate_fieldFrame s.inp.byte s.inp.tStart n s
  rwa [← State.accumulateByte, h] at hframe

/-- The registers that the rule of the packet state of `s` may write, and the ones every rule leaves unchanged. -/
structure State.RuleFrame (s t : State) : Prop extends s.SameInput t where
  headerMatchIndex : s.state ≠ .header → t.headerMatchIndex = s.headerMatchIndex
  currentCommand : s.state ≠ .command → t.currentCommand = s.currentCommand
  declaredLength : s.state ≠ .header → s.state ≠ .length → s.state ≠ .checksum → t.declaredLength = s.declaredLength

section
variable {s t : State}

theorem State.FieldFrame.goto (h : s.FieldFrame t) (p : PacketState) : s.FieldFrame (t.goto p) := { h with }

theorem State.FieldFrame.emitField (h : s.FieldFrame t) (k : Kind) (p : Payload) : s.FieldFrame (t.emitField k p) :=
  { h with }

theorem State.FieldFrame.ruleFrame (h : s.FieldFrame t) : s.RuleFrame t where
  toSameInput := h.toSameInput
  headerMatchIndex _ := h.headerMatchIndex
  currentCommand _ := h.currentCommand
  declaredLength _ _ _ := h.declaredLength

/-- LENGTH and CHECKSUM write the length registers. -/
theorem State.FieldFrame.ruleFrame_setLengths (h : s.FieldFrame t) (hs : s.state = .length ∨ s.state = .checksum)
    (d : BitVec 16) (c : BitVec 17) : s.RuleFrame (t.setLengths d c) where
  toSameInput := { h.toSameInput with }
  headerMatchIndex _ := h.headerMatchIndex
  currentCommand _ := h.currentCommand
  declaredLength _ hlength hchecksum := absurd hs (not_or.2 ⟨hlength, hchecksum⟩)

/-- Moving on and reporting write nothing that a frame names. -/
theorem State.RuleFrame.goto_emitField (h : s.RuleFrame t) (p : PacketState) (k : Kind) (pl : Payload) :
    s.RuleFrame ((t.goto p).emitField k pl) := { h with }

/-- HEADER may write all but `current_command`. -/
theorem State.SameInput.ruleFrame_of_header (h : s.SameInput t) (hs : s.state = .header)
    (hcommand : t.currentCommand = s.currentCommand) : s.RuleFrame t where
  toSameInput := h
  headerMatchIndex hne := absurd hs hne
  currentCommand _ := hcommand
  declaredLength hne := absurd hs hne

/-! ### The state rules -/

theorem headerMatch_ruleFrame (hs : s.state = .header) : s.RuleFrame (headerMatch s) := by
  unfold headerMatch
  split
  all_goals
    next t h =>
    have hframe := accumulateByte_fieldFrame h
    exact State.SameInput.ruleFrame_of_header ⟨hframe.inp, hframe.pending, hframe.resetSeen⟩ hs hframe.currentCommand

theorem headerStep_ruleFrame (hs : s.state = .header) (h : headerStep s = .next t) : s.RuleFrame t := by
  unfold headerStep at h
  split at h
  next => cases h
  next =>
    split at h
    next =>
      cases h
      exact headerMatch_ruleFrame hs
    next => split at h <;> cases h <;> exact State.SameInput.ruleFrame_of_header ⟨rfl, rfl, rfl⟩ hs rfl

theorem addressStep_ruleFrame (s : State) : s.RuleFrame (addressStep s) :=
  ⟨⟨rfl, rfl, rfl⟩, fun _ => rfl, fun _ => rfl, fun _ _ _ => rfl⟩

theorem lengthStep_ruleFrame (hs : s.state = .length) : s.RuleFrame (lengthStep s) := by
  unfold lengthStep
  split
  next t h => exact ((accumulateByte_fieldFrame h).ruleFrame_setLengths (.inl hs) _ _).goto_emitField _ _ _
  next t h => exact (accumulateByte_fieldFrame h).ruleFrame

theorem commandStep_ruleFrame (hs : s.state = .command) (code : Byte) (cmd : Command) :
    s.RuleFrame (commandStep code cmd s) := by
  have h := accumulate_fieldFrame code s.inp.tStart 1 s
  exact ⟨{ h.toSameInput with }, fun _ => h.headerMatchIndex, fun hne => absurd hs hne, fun _ _ _ => h.declaredLength⟩

theorem ramAddressStep_ruleFrame (s : State) : s.RuleFrame (ramAddressStep s) := by
  unfold ramAddressStep
  split
  next t h => exact (accumulateByte_fieldFrame h).ruleFrame.goto_emitField _ _ _
  next t h => exact (accumulateByte_fieldFrame h).ruleFrame

theorem errorCodeStep_ruleFrame (s : State) : s.RuleFrame (errorCodeStep s) :=
  (accumulate_fieldFrame s.inp.byte s.inp.tStart 1 s).ruleFrame.goto_emitField _ _ _

theorem valueStep_ruleFrame (s : State) : s.RuleFrame (valueStep s) := by
  unfold valueStep
  split
  next t h => exact (accumulateByte_fieldFrame h).ruleFrame.goto_emitField _ _ _
  next t h => exact (accumulateByte_fieldFrame h).ruleFrame

theorem checksumStep_ruleFrame (hs : s.state = .checksum) (h : checksumStep s = .next t) : s.RuleFrame t := by
  unfold checksumStep at h
  split at h
  next u hu =>
    split at h
    next =>
      cases h
      exact ((accumulateByte_fieldFrame hu).ruleFrame_setLengths (.inr hs) _ _).goto_emitField _ _ _
    next => cases h
  next u hu =>
    cases h
    exact (accumulateByte_fieldFrame hu).ruleFrame

theorem stateRule_ruleFrame (h : stateRule s = .next t) : s.RuleFrame t := by
  cases hs : s.state with
  | header => exact headerStep_ruleFrame hs (stateRule_header hs ▸ h)
  | address => rw [stateRule_address hs] at h; cases h; exact addressStep_ruleFrame s
  | length => rw [stateRule_length hs] at h; cases h; exact lengthStep_ruleFrame hs
  | command => rw [stateRule_command hs] at h; cases h; exact commandStep_ruleFrame hs _ _
  | ramAddress => rw [stateRule_ramAddress hs] at h; cases h; exact ramAddressStep_ruleFrame s
  | errorCode => rw [stateRule_errorCode hs] at h; cases h; exact errorCodeStep_ruleFrame s
  | value => rw [stateRule_value hs] at h; cases h; exact valueStep_ruleFrame s
  | checksum => exact checksumStep_ruleFrame hs (stateRule_checksum hs ▸ h)

end

/-! ### The step -/

/-- Settles O44: the frame of the rule of the packet state, at the state that has received the byte; ADDRESS writes the
packet state and the output port alone. -/
theorem registerWriters : Obligations.RegisterWriters := by
  unfold Obligations.RegisterWriters
  intro s t c rest htakes hstep
  rw [step_takes htakes] at hstep
  have hframe := stateRule_ruleFrame hstep
  refine ⟨hframe.headerMatchIndex, hframe.currentCommand, hframe.declaredLength, ?_, hframe.pending, hframe.inp,
    hframe.resetSeen⟩
  intro hs
  rw [stateRule_address (s := s.receive c rest) hs] at hstep
  cases hstep
  exact ⟨rfl, rfl, rfl, rfl, rfl⟩

/-- Every step takes one cycle off the stream. -/
theorem step_pending {s t : State} {c : Cycle} {rest : List Cycle} (hn : s.pending = c :: rest)
    (h : step s = .next t) : t.pending = rest := by
  rcases step_cases s with ⟨hnil, _⟩ | ⟨c', rest', hn', hstep⟩
  · rw [hnil] at hn; cases hn
  obtain ⟨rfl, rfl⟩ := List.cons.inj (hn'.symm.trans hn)
  rcases hstep with ⟨_, hreset⟩ | ⟨_, _, hidle⟩ | ⟨_, _, hrefused⟩ | ⟨_, hguard⟩ | ⟨_, hrule⟩
  · rw [hreset] at h; cases h; rfl
  · rw [hidle] at h; cases h; rfl
  · rw [hrefused] at h; cases h
  · rw [hguard] at h; cases h; rfl
  · exact (stateRule_ruleFrame (hrule.symm.trans h)).pending

/-- No step takes the reset mark back. -/
theorem step_resetSeen {s t : State} (hr : s.resetSeen = true) (h : step s = .next t) : t.resetSeen = true := by
  rcases step_cases s with ⟨hnil, hidle⟩ | ⟨c, rest, _, hstep⟩
  · rw [hidle, takeCycle_nil hnil] at h; cases h; exact hr
  rcases hstep with ⟨_, hreset⟩ | ⟨_, _, hidle⟩ | ⟨_, _, hrefused⟩ | ⟨_, hguard⟩ | ⟨_, hrule⟩
  · rw [hreset] at h; cases h; rfl
  · rw [hidle] at h; cases h; exact hr
  · rw [hrefused] at h; cases h
  · rw [hguard] at h; cases h; exact hr
  · exact (stateRule_ruleFrame (hrule.symm.trans h)).resetSeen.trans hr

end Sys2Proof.Machine
end

section
/-! What an element carries (spec/30_encoding.md R73), and that the state rules report no FrameError (spec/60_exceptions.md
R141, R142). -/

namespace Sys2Proof.Machine

/-- The payload R73 gives each kind, from the current byte and the bytes the block holds after the step. -/
def PayloadFits (byte : Byte) (held : List Byte) (k : Kind) (p : Payload) : Prop :=
  match k with
  | .header => p = .empty
  | .address => p = .int (byte.setWidth 16)
  | .length => p = .int (BitVec.ofNat 16 (littleEndian held))
  | .command _ => p = .int (byte.setWidth 16)
  | .ramAddress => p = .int (BitVec.ofNat 16 (littleEndian held))
  | .errorCode => p = .int (byte.setWidth 16)
  | .value => p = .int (BitVec.ofNat 16 (littleEndian held))
  | .checksum => ∃ (c0 c1 : Byte) (more : List Byte), held = c0 :: c1 :: more ∧ p = .bytes c1 c0
  | .frameError => p = .empty

/-- The state `t` that a state rule makes of `s` reports nothing, or an element other than FrameError with the payload of
R73. -/
def RuleReports (s t : State) : Prop :=
  ∀ e : Element, t.out = some e → e.kind ≠ .frameError ∧ PayloadFits s.inp.byte t.accBytes e.kind e.payload

section
variable {s t : State}

theorem ruleReports_of_out_eq_none (h : t.out = none) : RuleReports s t := by
  intro e he
  rw [h] at he
  cases he

theorem ruleReports_emitField {k : Kind} {p : Payload} (hk : k ≠ .frameError)
    (hp : PayloadFits s.inp.byte t.accBytes k p) : RuleReports s (t.emitField k p) := by
  intro e he
  obtain rfl := Option.some.inj he
  exact ⟨hk, hp⟩

/-- A completed field's low 16 bits are those of the value of the bytes held (R63, R81). -/
theorem accumulateByte_field16 {n : Int} (h : s.accumulateByte n = (true, t)) :
    t.field16 = BitVec.ofNat 16 (littleEndian t.accBytes) := by
  rw [State.accumulateByte] at h
  rcases accumulate_cases s.inp.byte s.inp.tStart n s with ⟨_, hdone⟩ | ⟨_, hheld⟩
  · obtain rfl := congrArg Prod.snd (hdone.symm.trans h)
    exact BitVec.setWidth_ofNat_of_le (by decide) _
  · exact absurd (congrArg Prod.fst (hheld.symm.trans h)) Bool.false_ne_true

theorem accumulateByte_out {n : Int} {done : Bool} (h : s.accumulateByte n = (done, t)) (hs : s.out = none) :
    t.out = none := (accumulateByte_fieldOf h).out.trans hs

/-! ### The state rules -/

theorem headerMatch_ruleReports (hs : s.out = none) : RuleReports s (headerMatch s) := by
  unfold headerMatch
  split
  next => exact ruleReports_emitField (by decide) rfl
  next t h => exact ruleReports_of_out_eq_none (accumulateByte_out h hs)

theorem headerStep_ruleReports (hs : s.out = none) (h : headerStep s = .next t) : RuleReports s t := by
  unfold headerStep at h
  split at h
  next => cases h
  next =>
    split at h
    next =>
      cases h
      exact headerMatch_ruleReports hs
    next => split at h <;> cases h <;> exact ruleReports_of_out_eq_none hs

theorem addressStep_ruleReports : RuleReports s (addressStep s) := by
  intro e he
  obtain rfl := Option.some.inj he
  exact ⟨Kind.noConfusion, rfl⟩

theorem lengthStep_ruleReports (hs : s.out = none) : RuleReports s (lengthStep s) := by
  unfold lengthStep
  split
  next t h => exact ruleReports_emitField (by decide) (congrArg _ (accumulateByte_field16 h))
  next t h => exact ruleReports_of_out_eq_none (accumulateByte_out h hs)

theorem commandStep_ruleReports (cmd : Command) : RuleReports s (commandStep s.inp.byte cmd s) :=
  ruleReports_emitField (by simp) rfl

theorem ramAddressStep_ruleReports (hs : s.out = none) : RuleReports s (ramAddressStep s) := by
  unfold ramAddressStep
  split
  next t h => exact ruleReports_emitField (by decide) (congrArg _ (accumulateByte_field16 h))
  next t h => exact ruleReports_of_out_eq_none (accumulateByte_out h hs)

theorem errorCodeStep_ruleReports : RuleReports s (errorCodeStep s) := ruleReports_emitField (by decide) rfl

theorem valueStep_ruleReports (hs : s.out = none) : RuleReports s (valueStep s) := by
  unfold valueStep
  split
  next t h => exact ruleReports_emitField (by decide) (congrArg _ (accumulateByte_field16 h))
  next t h => exact ruleReports_of_out_eq_none (accumulateByte_out h hs)

theorem checksumStep_ruleReports (hs : s.out = none) (h : checksumStep s = .next t) : RuleReports s t := by
  unfold checksumStep at h
  split at h
  next u hu =>
    split at h
    next c0 c1 more hheld =>
      cases h
      exact ruleReports_emitField (by decide) ⟨c0, c1, more, hheld, rfl⟩
    next => cases h
  next u hu =>
    cases h
    exact ruleReports_of_out_eq_none (accumulateByte_out hu hs)

theorem stateRule_ruleReports (hs : s.out = none) (h : stateRule s = .next t) : RuleReports s t := by
  cases hp : s.state with
  | header => exact headerStep_ruleReports hs (stateRule_header hp ▸ h)
  | address => rw [stateRule_address hp] at h; cases h; exact addressStep_ruleReports
  | length => rw [stateRule_length hp] at h; cases h; exact lengthStep_ruleReports hs
  | command =>
    rw [stateRule_command hp, code_decodeByte] at h
    cases h
    exact commandStep_ruleReports _
  | ramAddress => rw [stateRule_ramAddress hp] at h; cases h; exact ramAddressStep_ruleReports hs
  | errorCode => rw [stateRule_errorCode hp] at h; cases h; exact errorCodeStep_ruleReports
  | value => rw [stateRule_value hp] at h; cases h; exact valueStep_ruleReports hs
  | checksum => exact checksumStep_ruleReports hs (stateRule_checksum hp ▸ h)

end

/-! ### The step -/

/-- An element comes from the guard, over the byte that overruns, or from a state rule. -/
theorem step_out_cases {s t : State} {c : Cycle} {rest : List Cycle} {e : Element} (hn : s.pending = c :: rest)
    (h : step s = .next t) (he : t.out = some e) :
    (s.Overruns c rest ∧ t = (s.receive c rest).overrunGuard ∧ e = spanElement .frameError .empty c c) ∨
    (s.TakesByte c rest ∧ stateRule (s.receive c rest) = .next t ∧ e.kind ≠ .frameError ∧
      PayloadFits c.byte t.accBytes e.kind e.payload) := by
  rcases step_cases s with ⟨hnil, _⟩ | ⟨c', rest', hn', hstep⟩
  · rw [hnil] at hn; cases hn
  obtain ⟨rfl, rfl⟩ := List.cons.inj (hn'.symm.trans hn)
  rcases hstep with ⟨_, hreset⟩ | ⟨_, _, hidle⟩ | ⟨_, _, hrefused⟩ | ⟨hover, hguard⟩ | ⟨htakes, hrule⟩
  · rw [hreset] at h; cases h; cases he
  · rw [hidle] at h; cases h; cases he
  · rw [hrefused] at h; cases h
  · rw [hguard] at h; cases h
    exact .inl ⟨hover, rfl, (Option.some.inj he).symm⟩
  · rw [hrule] at h
    exact .inr ⟨htakes, h, stateRule_ruleReports rfl h e he⟩

/-- Settles O13: of the two origins of an element only the guard gives a FrameError. -/
theorem onlyTheGuardReportsFrameError : Obligations.OnlyTheGuardReportsFrameError := by
  unfold Obligations.OnlyTheGuardReportsFrameError
  intro s t c rest hn hstep
  refine ⟨⟨?_, ?_⟩, ?_⟩
  · rintro ⟨e, he, hkind⟩
    rcases step_out_cases hn hstep he with ⟨hover, _⟩ | ⟨_, _, hne, _⟩
    · exact hover
    · exact absurd hkind hne
  · intro hover
    rw [step_overruns hover] at hstep
    cases hstep
    exact ⟨_, rfl, rfl⟩
  · intro e he hkind
    rcases step_out_cases hn hstep he with ⟨_, _, heq⟩ | ⟨_, _, hne, _⟩
    · exact heq
    · exact absurd hkind hne

/-- Settles O46: the guard's element has no payload, and a state rule's has the one of R73. -/
theorem elementPayloads : Obligations.ElementPayloads := by
  unfold Obligations.ElementPayloads
  intro s t c rest e hn hstep he
  rcases step_out_cases hn hstep he with ⟨_, _, rfl⟩ | ⟨_, _, _, hfits⟩
  · rfl
  · exact hfits

end Sys2Proof.Machine
end

section
/-! What the block only carries (spec/20_memory.md R49, R58): every operation commutes with a renaming of times and with an
exchange of the stream to come. -/

namespace Sys2Proof.Machine

/-- A state with its times renamed by `f` and its stream exchanged by `g`. -/
def State.relabel (f : Config.Time → Config.Time) (g : List Cycle → List Cycle) (s : State) : State :=
  { s with
    packetStartTime := f s.packetStartTime
    out := s.out.map (Element.mapTimes f)
    inp := s.inp.mapTimes f
    pending := g s.pending }

theorem mapTimes_eq_relabel (f : Config.Time → Config.Time) (s : State) :
    s.mapTimes f = s.relabel f (List.map (Cycle.mapTimes f)) := rfl

theorem withStream_eq_relabel (cs : List Cycle) (s : State) : s.withStream cs = s.relabel id fun _ => cs := by
  have hout : s.out.map (Element.mapTimes id) = s.out := congrFun Option.map_id_fun s.out
  rw [State.relabel, hout]
  rfl

section
variable (f : Config.Time → Config.Time) (g : List Cycle → List Cycle) (s : State)

theorem beginField_relabel (ts : Config.Time) :
    (s.relabel f g).beginField (f ts) = (s.beginField ts).relabel f g := by
  by_cases hfirst : s.accCount = 0#3
  · rw [beginField_first hfirst, beginField_first (by exact hfirst)]
    rfl
  · rw [beginField_later hfirst, beginField_later (by exact hfirst)]

theorem accumulate_relabel (b : Byte) (ts : Config.Time) (n : Int) :
    accumulate b (f ts) n (s.relabel f g) = ((accumulate b ts n s).1, (accumulate b ts n s).2.relabel f g) := by
  by_cases hdone : n ≤ (s.accCount.toNat : Int) + 1
  · rw [accumulate_of_le hdone, accumulate_of_le (by exact hdone), beginField_relabel]
    rfl
  · rw [accumulate_of_lt (Int.not_le.1 hdone), accumulate_of_lt (by exact Int.not_le.1 hdone), beginField_relabel]
    rfl

theorem accumulateByte_relabel (n : Int) :
    (s.relabel f g).accumulateByte n = ((s.accumulateByte n).1, (s.accumulateByte n).2.relabel f g) :=
  accumulate_relabel f g s s.inp.byte s.inp.tStart n

/-! ### The state rules: complete or not, the updates after the accumulator copy the times they find -/

theorem headerMatch_relabel : headerMatch (s.relabel f g) = (headerMatch s).relabel f g := by
  have hindex : (s.relabel f g).setMatchIndex ((s.relabel f g).headerMatchIndex + 1#3) =
      (s.setMatchIndex (s.headerMatchIndex + 1#3)).relabel f g := rfl
  rw [headerMatch, headerMatch, hindex, accumulateByte_relabel]
  rcases (s.setMatchIndex (s.headerMatchIndex + 1#3)).accumulateByte 4 with ⟨_ | _, t⟩ <;> rfl

theorem headerStep_relabel : headerStep (s.relabel f g) = mapNext (State.relabel f g) (headerStep s) := by
  have hindex : (s.relabel f g).headerMatchIndex = s.headerMatchIndex := rfl
  have hbyte : (s.relabel f g).inp.byte = s.inp.byte := rfl
  rw [headerStep, headerStep, hindex, hbyte, headerMatch_relabel]
  rcases headerByte? s.headerMatchIndex with _ | h
  · rfl
  · simp only
    split
    · rfl
    · split <;> rfl

theorem lengthStep_relabel : lengthStep (s.relabel f g) = (lengthStep s).relabel f g := by
  rw [lengthStep, lengthStep, accumulateByte_relabel]
  rcases s.accumulateByte 2 with ⟨_ | _, t⟩ <;> rfl

theorem commandStep_relabel (code : Byte) (cmd : Command) :
    commandStep code cmd (s.relabel f g) = (commandStep code cmd s).relabel f g := by
  have htime : (s.relabel f g).inp.tStart = f s.inp.tStart := rfl
  rw [commandStep, commandStep, htime, accumulate_relabel]
  rfl

theorem ramAddressStep_relabel : ramAddressStep (s.relabel f g) = (ramAddressStep s).relabel f g := by
  rw [ramAddressStep, ramAddressStep, accumulateByte_relabel]
  rcases s.accumulateByte 2 with ⟨_ | _, t⟩ <;> rfl

theorem errorCodeStep_relabel : errorCodeStep (s.relabel f g) = (errorCodeStep s).relabel f g := by
  rw [errorCodeStep, errorCodeStep, accumulateByte_relabel]
  rfl

theorem valueStep_relabel : valueStep (s.relabel f g) = (valueStep s).relabel f g := by
  have hsize : (s.relabel f g).chunkSize = s.chunkSize := rfl
  rw [valueStep, valueStep, hsize, accumulateByte_relabel]
  rcases s.accumulateByte s.chunkSize with ⟨_ | _, t⟩ <;> rfl

theorem checksumStep_relabel : checksumStep (s.relabel f g) = mapNext (State.relabel f g) (checksumStep s) := by
  rw [checksumStep, checksumStep, accumulateByte_relabel]
  rcases s.accumulateByte 2 with ⟨_ | _, t⟩
  · rfl
  · have hheld : (t.relabel f g).accBytes = t.accBytes := rfl
    simp only [hheld]
    split <;> rfl

theorem stateRule_relabel : stateRule (s.relabel f g) = mapNext (State.relabel f g) (stateRule s) := by
  have hp : (s.relabel f g).state = s.state := rfl
  cases hs : s.state with
  | header => rw [stateRule_header hs, stateRule_header (hp.trans hs), headerStep_relabel]
  | address => rw [stateRule_address hs, stateRule_address (hp.trans hs)]; rfl
  | length => rw [stateRule_length hs, stateRule_length (hp.trans hs), lengthStep_relabel]; rfl
  | command => rw [stateRule_command hs, stateRule_command (hp.trans hs), commandStep_relabel]; rfl
  | ramAddress => rw [stateRule_ramAddress hs, stateRule_ramAddress (hp.trans hs), ramAddressStep_relabel]; rfl
  | errorCode => rw [stateRule_errorCode hs, stateRule_errorCode (hp.trans hs), errorCodeStep_relabel]; rfl
  | value => rw [stateRule_value hs, stateRule_value (hp.trans hs), valueStep_relabel]; rfl
  | checksum => rw [stateRule_checksum hs, stateRule_checksum (hp.trans hs), checksumStep_relabel]

/-! ### The step -/

theorem feed_relabel : feed (s.relabel f g) = mapNext (State.relabel f g) (feed s) := by
  have hover : (s.relabel f g).overrun = s.overrun := rfl
  rw [feed, feed, hover, stateRule_relabel]
  split <;> rfl

/-- A reset writes the one time the block was not given. -/
theorem runCycle_relabel (h : f Config.resetTime = Config.resetTime ∨ s.inp.rst = false) :
    runCycle (s.relabel f g) = mapNext (State.relabel f g) (runCycle s) := by
  have hrst : (s.relabel f g).inp.rst = s.inp.rst := rfl
  have hvalid : (s.relabel f g).inp.valid = s.inp.valid := rfl
  have hseen : (s.relabel f g).resetSeen = s.resetSeen := rfl
  rw [runCycle, runCycle, hrst, hvalid, hseen, feed_relabel]
  split
  next hreset =>
    have hkept : f Config.resetTime = Config.resetTime := h.resolve_right (by rw [hreset]; decide)
    simp only [State.resetBlock, mapNext, State.relabel, State.reset, hkept, Option.map_none]
  next =>
    split
    · split <;> rfl
    · rfl

end

theorem takeCycle_mapTimes (f : Config.Time → Config.Time) (s : State) :
    (s.mapTimes f).takeCycle = s.takeCycle.mapTimes f := by
  unfold State.takeCycle State.mapTimes
  rcases s.pending with _ | ⟨c, rest⟩ <;> rfl

/-- Settles O47: taking the cycle and acting on it both commute with the renaming. -/
theorem timesAreOnlyCopied : Obligations.TimesAreOnlyCopied := by
  unfold Obligations.TimesAreOnlyCopied
  intro f s h
  have hcycle : f Config.resetTime = Config.resetTime ∨ s.takeCycle.inp.rst = false := by
    refine h.imp_right fun hnot => ?_
    rcases hn : s.pending with _ | ⟨c, rest⟩
    · rw [takeCycle_nil hn]
      rfl
    · rw [takeCycle_cons hn]
      exact hnot c rest hn
  rw [step, step, takeCycle_mapTimes, mapTimes_eq_relabel, runCycle_relabel f _ _ hcycle]
  rfl

/-- The step reads the first cycle of the stream and no later one. -/
theorem step_withStream (s : State) (c : Cycle) (cs cs' : List Cycle) :
    step (s.withStream (c :: cs')) = mapNext (State.withStream cs') (step (s.withStream (c :: cs))) := by
  have hstream : State.withStream cs' = State.relabel id fun _ => cs' := funext (withStream_eq_relabel cs')
  have hreceive : (s.withStream (c :: cs')).receive c cs' = ((s.withStream (c :: cs)).receive c cs).withStream cs' := rfl
  rw [step, step, takeCycle_cons (State.withStream_pending _ _), takeCycle_cons (State.withStream_pending _ _), hreceive,
    hstream, runCycle_relabel _ _ _ (.inl rfl)]

end Sys2Proof.Machine
end

section
/-! Two states that differ only in what no rule reads before writing it (spec/10_state.md R21, R25, R26): a simulation, from
the accumulator to the step. -/

namespace Sys2Proof.Machine

/-- Two such states in a step, where both ports show the same. -/
structure State.SameInStep (s s' : State) : Prop extends s.SameToLaterSteps s' where
  inp : s.inp = s'.inp
  out : s.out = s'.out

/-- The state with other contents in the two registers that no rule reads before writing them. -/
def State.withUnread (v : BitVec 32) (cmd : Command) (s : State) : State :=
  { s with fieldValue := v, currentCommand := cmd }

theorem sameInStep_withUnread (s : State) (v : BitVec 32) (cmd : Command) : s.SameInStep (s.withUnread v cmd) :=
  ⟨⟨rfl, rfl, rfl, rfl, rfl, rfl, rfl, fun _ => rfl, fun _ => rfl⟩, rfl, rfl⟩

/-- The outcomes of two such states: both complete, in such states again, or both stop. -/
def SameOutcome : Host.Outcome State Fault Refusal → Host.Outcome State Fault Refusal → Prop
  | .next t, .next t' => t.SameInStep t'
  | .fault r, .fault r' => r = r'
  | .refused r, .refused r' => r = r'
  | _, _ => False

theorem SameOutcome.exists_next {r : Host.Outcome State Fault Refusal} {t : State} (h : SameOutcome (.next t) r) :
    ∃ t' : State, r = .next t' ∧ t.SameInStep t' := by
  cases r with
  | next t' => exact ⟨t', rfl, h⟩
  | fault => exact h.elim
  | refused => exact h.elim

section
variable {s s' : State}

theorem State.SameInStep.receive (h : s.SameToLaterSteps s') (c : Cycle) (rest : List Cycle) :
    (s.receive c rest).SameInStep (s'.receive c rest) :=
  ⟨{ h with pending := rfl }, rfl, rfl⟩

theorem State.SameInStep.setMatchIndex (h : s.SameInStep s') (i : BitVec 3) :
    (s.setMatchIndex i).SameInStep (s'.setMatchIndex i) :=
  { h with headerMatchIndex := rfl }

/-! ### The accumulator -/

/-- Once a byte has begun or joined the field, `acc_bytes` and `packet_start_time` agree too. -/
theorem beginField_same (h : s.SameInStep s') (ts : Config.Time) :
    s'.beginField ts = (s.beginField ts).withUnread s'.fieldValue s'.currentCommand := by
  have hbytes : (if s.accCount = 0#3 then [] else s'.accBytes) = if s.accCount = 0#3 then [] else s.accBytes :=
    ite_congr rfl (fun _ => rfl) fun hlater => (h.accBytes hlater).symm
  have htime : (if s.accCount = 0#3 then ts else s'.packetStartTime) =
      if s.accCount = 0#3 then ts else s.packetStartTime :=
    ite_congr rfl (fun _ => rfl) fun hlater => (h.packetStartTime hlater).symm
  rw [beginField_eq, beginField_eq, ← h.accCount, hbytes, htime, State.withUnread, State.mk.injEq]
  exact ⟨h.state.symm, rfl, rfl, h.headerMatchIndex.symm, rfl, h.declaredLength.symm, h.consumedLength.symm,
    rfl, rfl, h.out.symm, h.inp.symm, h.resetSeen.symm, h.pending.symm⟩

/-- A completed field exposes the same value; a held byte leaves `field_value` as it was. -/
theorem accumulate_same (h : s.SameInStep s') (b : Byte) (ts : Config.Time) (n : Int) :
    (∃ t : State, accumulate b ts n s = (true, t) ∧
      accumulate b ts n s' = (true, t.withUnread t.fieldValue s'.currentCommand)) ∨
    (∃ t : State, accumulate b ts n s = (false, t) ∧
      accumulate b ts n s' = (false, t.withUnread s'.fieldValue s'.currentCommand)) := by
  have hbegun := beginField_same h ts
  rcases accumulate_cases b ts n s with ⟨hdone, heq⟩ | ⟨hshort, heq⟩
  · refine .inl ⟨_, heq, ?_⟩
    rw [accumulate_of_le (by rw [← h.accCount]; omega), hbegun, ← h.accCount]
    rfl
  · refine .inr ⟨_, heq, ?_⟩
    rw [accumulate_of_lt (by rw [← h.accCount]; omega), hbegun, ← h.accCount]
    rfl

theorem accumulateByte_same (h : s.SameInStep s') (n : Int) :
    (∃ t : State, s.accumulateByte n = (true, t) ∧
      s'.accumulateByte n = (true, t.withUnread t.fieldValue s'.currentCommand)) ∨
    (∃ t : State, s.accumulateByte n = (false, t) ∧
      s'.accumulateByte n = (false, t.withUnread s'.fieldValue s'.currentCommand)) := by
  have hacc := accumulate_same h s.inp.byte s.inp.tStart n
  rw [State.accumulateByte, State.accumulateByte, ← h.inp]
  exact hacc

/-! ### The state rules: in both outcomes of the accumulator the unread registers alone can differ -/

theorem headerMatch_same (h : s.SameInStep s') : (headerMatch s).SameInStep (headerMatch s') := by
  rw [headerMatch, headerMatch, ← h.headerMatchIndex]
  rcases accumulateByte_same (h.setMatchIndex (s.headerMatchIndex + 1#3)) 4 with ⟨t, heq, heq'⟩ | ⟨t, heq, heq'⟩
  · rw [heq, heq']; exact sameInStep_withUnread _ _ _
  · rw [heq, heq']; exact sameInStep_withUnread _ _ _

theorem headerStep_same (h : s.SameInStep s') : SameOutcome (headerStep s) (headerStep s') := by
  rw [headerStep, headerStep, ← h.headerMatchIndex, ← h.inp]
  rcases headerByte? s.headerMatchIndex with _ | b
  · rfl
  · simp only
    split
    · exact headerMatch_same h
    · split
      · exact h
      · exact { h with declaredLength := rfl, consumedLength := rfl }

theorem addressStep_same (h : s.SameInStep s') : (addressStep s).SameInStep (addressStep s') := by
  have hout : (addressStep s).out = (addressStep s').out := by
    rw [addressStep, addressStep, State.emit_out, State.emit_out, h.inp]
  exact { h with state := rfl, out := hout }

theorem lengthStep_same (h : s.SameInStep s') : (lengthStep s).SameInStep (lengthStep s') := by
  rw [lengthStep, lengthStep]
  rcases accumulateByte_same h 2 with ⟨t, heq, heq'⟩ | ⟨t, heq, heq'⟩
  · rw [heq, heq']; exact sameInStep_withUnread _ _ _
  · rw [heq, heq']; exact sameInStep_withUnread _ _ _

theorem commandStep_same (h : s.SameInStep s') (code : Byte) (cmd : Command) :
    (commandStep code cmd s).SameInStep (commandStep code cmd s') := by
  rw [commandStep, commandStep, ← h.inp]
  rcases accumulate_same h code s.inp.tStart 1 with ⟨t, heq, heq'⟩ | ⟨t, heq, heq'⟩
  · rw [heq, heq']; exact sameInStep_withUnread _ _ _
  · rw [heq, heq']; exact sameInStep_withUnread _ _ _

theorem ramAddressStep_same (h : s.SameInStep s') : (ramAddressStep s).SameInStep (ramAddressStep s') := by
  rw [ramAddressStep, ramAddressStep]
  rcases accumulateByte_same h 2 with ⟨t, heq, heq'⟩ | ⟨t, heq, heq'⟩
  · rw [heq, heq']; exact sameInStep_withUnread _ _ _
  · rw [heq, heq']; exact sameInStep_withUnread _ _ _

theorem errorCodeStep_same (h : s.SameInStep s') : (errorCodeStep s).SameInStep (errorCodeStep s') := by
  rw [errorCodeStep, errorCodeStep, ← h.inp]
  rcases accumulateByte_same h 1 with ⟨t, heq, heq'⟩ | ⟨t, heq, heq'⟩
  · rw [heq, heq']; exact sameInStep_withUnread _ _ _
  · rw [heq, heq']; exact sameInStep_withUnread _ _ _

theorem valueStep_same (h : s.SameInStep s') : (valueStep s).SameInStep (valueStep s') := by
  have hsize : s'.chunkSize = s.chunkSize := by
    rw [State.chunkSize, State.chunkSize, State.remaining, State.remaining, h.declaredLength, h.consumedLength]
  rw [valueStep, valueStep, hsize]
  rcases accumulateByte_same h s.chunkSize with ⟨t, heq, heq'⟩ | ⟨t, heq, heq'⟩
  · rw [heq, heq']; exact sameInStep_withUnread _ _ _
  · rw [heq, heq']; exact sameInStep_withUnread _ _ _

theorem checksumStep_same (h : s.SameInStep s') : SameOutcome (checksumStep s) (checksumStep s') := by
  rw [checksumStep, checksumStep]
  rcases accumulateByte_same h 2 with ⟨t, heq, heq'⟩ | ⟨t, heq, heq'⟩
  · have hheld : (t.withUnread t.fieldValue s'.currentCommand).accBytes = t.accBytes := rfl
    rw [heq, heq']
    simp only [hheld]
    split
    · exact sameInStep_withUnread _ _ _
    · rfl
  · rw [heq, heq']; exact sameInStep_withUnread _ _ _

theorem stateRule_same (h : s.SameInStep s') : SameOutcome (stateRule s) (stateRule s') := by
  have hp : s'.state = s.state := h.state.symm
  cases hs : s.state with
  | header => rw [stateRule_header hs, stateRule_header (hp.trans hs)]; exact headerStep_same h
  | address => rw [stateRule_address hs, stateRule_address (hp.trans hs)]; exact addressStep_same h
  | length => rw [stateRule_length hs, stateRule_length (hp.trans hs)]; exact lengthStep_same h
  | command =>
    rw [stateRule_command hs, stateRule_command (hp.trans hs), ← h.inp]
    exact commandStep_same h _ _
  | ramAddress => rw [stateRule_ramAddress hs, stateRule_ramAddress (hp.trans hs)]; exact ramAddressStep_same h
  | errorCode => rw [stateRule_errorCode hs, stateRule_errorCode (hp.trans hs)]; exact errorCodeStep_same h
  | value => rw [stateRule_value hs, stateRule_value (hp.trans hs)]; exact valueStep_same h
  | checksum => rw [stateRule_checksum hs, stateRule_checksum (hp.trans hs)]; exact checksumStep_same h

/-! ### The step -/

/-- Taking the error writes all that the rules read of the packet. -/
theorem overrunGuard_same (h : s.SameInStep s') : s.overrunGuard.SameInStep s'.overrunGuard := by
  have hout : s.overrunGuard.out = s'.overrunGuard.out := by
    rw [State.overrunGuard_out, State.overrunGuard_out, h.inp]
  exact ⟨⟨rfl, rfl, rfl, rfl, rfl, h.resetSeen, h.pending, fun _ => rfl, fun hne => absurd rfl hne⟩, h.inp, hout⟩

theorem runCycle_same (h : s.SameInStep s') : SameOutcome (runCycle s) (runCycle s') := by
  have hover : s'.overrun = s.overrun := by
    rw [State.overrun, State.overrun, h.declaredLength, h.consumedLength]
  rw [runCycle, runCycle, feed, feed, hover, ← h.inp, ← h.resetSeen]
  split
  · exact ⟨⟨rfl, rfl, rfl, rfl, rfl, rfl, h.pending, fun _ => rfl, fun _ => rfl⟩, h.inp, rfl⟩
  · split
    · split
      · split
        · exact overrunGuard_same h
        · exact stateRule_same h
      · rfl
    · exact h

end

/-- Settles O53: a cycle acts alike on both states; when the stream has ended the ports may keep different bytes, but
nothing is done with them. -/
theorem stepKeepsUnreadDifferences : Obligations.StepKeepsUnreadDifferences := by
  unfold Obligations.StepKeepsUnreadDifferences
  intro s s' t h hstep
  rcases hn : s.pending with _ | ⟨c, rest⟩
  · have hn' : s'.pending = [] := h.pending.symm.trans hn
    obtain rfl := Host.Outcome.next.inj ((step_nil hn).symm.trans hstep)
    exact ⟨_, step_nil hn', { h with pending := rfl }, rfl⟩
  · have hn' : s'.pending = c :: rest := h.pending.symm.trans hn
    have hsame := runCycle_same (State.SameInStep.receive h c rest)
    rw [← takeCycle_cons hn, ← takeCycle_cons hn', ← step, ← step, hstep] at hsame
    obtain ⟨t', hstep', hnext⟩ := hsame.exists_next
    exact ⟨t', hstep', hnext.toSameToLaterSteps, hnext.out⟩

/-! ### Runs -/

theorem State.SameToLaterSteps.symm {s t : State} (h : s.SameToLaterSteps t) : t.SameToLaterSteps s where
  state := h.state.symm
  accCount := h.accCount.symm
  headerMatchIndex := h.headerMatchIndex.symm
  declaredLength := h.declaredLength.symm
  consumedLength := h.consumedLength.symm
  resetSeen := h.resetSeen.symm
  pending := h.pending.symm
  accBytes hne := (h.accBytes (h.accCount ▸ hne)).symm
  packetStartTime hne := (h.packetStartTime (h.accCount ▸ hne)).symm

/-- A run whose first step stops stops. -/
theorem collect_succ_eq_none {s : State} (h : ∀ t : State, step s ≠ .next t) (k : Nat) : collect (k + 1) s = none := by
  rw [collect]
  split
  next t ht => exact absurd ht (h t)
  next => rfl
  next => rfl

/-- Settles O54, by induction on the number of steps; the relation is symmetric, so neither run stops before the other. -/
theorem unreadRegistersNeverShow : Obligations.UnreadRegistersNeverShow := by
  unfold Obligations.UnreadRegistersNeverShow
  intro k
  induction k with
  | zero => intro s t _; rfl
  | succ k ih =>
    intro s t h
    by_cases hnext : ∃ u : State, step s = .next u
    · obtain ⟨u, hu⟩ := hnext
      obtain ⟨v, hv, hsame, hout⟩ := stepKeepsUnreadDifferences s t u h hu
      have hlater := congrArg (Option.map (u.out.toList ++ ·)) (ih u v hsame)
      rw [collect_next hu, collect_next hv, ← hout]
      simpa [Option.map_map, Function.comp_def] using hlater
    · have hs : ∀ u : State, step s ≠ .next u := fun u hu => hnext ⟨u, hu⟩
      have ht : ∀ v : State, step t ≠ .next v := fun v hv =>
        have ⟨u, hu, _⟩ := stepKeepsUnreadDifferences t s v h.symm hv
        hs u hu
      rw [collect_succ_eq_none hs, collect_succ_eq_none ht]

end Sys2Proof.Machine
end

section
/-! Everything a byte can do in a state that meets the invariant (spec/41_framing.md R92 to R99, spec/42_command.md R106,
spec/43_payload.md R126 to R134). -/

namespace Sys2Proof.Machine

section
variable {s : State} {b0 : Byte}

/-! ### LENGTH and ERROR_CODE on their fields -/

theorem lengthStep_first (h : s.accCount = 0#3) : lengthStep s = firstOfTwo s := by
  simp only [lengthStep, accumulateByte_first h le_rfl]

theorem lengthStep_second (h : s.accCount = 1#3) (hb : s.accBytes = [b0]) :
    lengthStep s =
      (((secondOfTwo b0 s).setLengths (s.inp.byte ++ b0) 0#17).goto .command).emitField .length
        (.int (s.inp.byte ++ b0)) := by
  simp only [lengthStep, accumulateByte_second h hb le_rfl, secondOfTwo_field16]

/-- Where ERROR_CODE goes when its byte has been counted (R128). -/
def State.afterErrorCode (s : State) : PacketState :=
  if (s.declaredLength.toNat : Int) - (s.consumedLength.toNat : Int) = 2 then .checksum else .value

theorem errorCodeStep_single (h : s.accCount = 0#3) :
    errorCodeStep s =
      ((onlyOfOne s).goto (onlyOfOne s).afterErrorCode).emitField .errorCode (.int (s.inp.byte.setWidth 16)) := by
  simp only [errorCodeStep, accumulateByte_single h le_rfl, State.onlyChecksumRemains, decide_eq_true_eq,
    State.afterErrorCode]

/-! ### The fields in progress -/

/-- Outside HEADER no byte or one byte is held (R19). -/
theorem State.Inv.held_cases (hinv : s.Inv) (hs : s.state ≠ .header) :
    s.accCount = 0#3 ∨ s.accCount = 1#3 ∧ ∃ b : Byte, s.accBytes = [b] := by
  by_cases hfirst : s.accCount = 0#3
  · exact .inl hfirst
  · have hle := hinv.count_outside hs
    have hone : s.accCount = 1#3 := by bv_omega
    have hlength : s.accBytes.length = 1 := by rw [hinv.field_bytes hfirst, hone]; rfl
    exact .inr ⟨hone, List.length_eq_one_iff.1 hlength⟩

end

/-! ### The byte step as a relation -/

/-- The states whose field has two bytes, except that a chunk of VALUE has two only where two bytes remain (R130). -/
def State.TakesTwo (s : State) : Prop :=
  s.state = .length ∨ s.state = .ramAddress ∨ s.state = .value ∧ 2 ≤ s.remaining ∨ s.state = .checksum

/-- The state `s`, which meets the invariant and has received a byte that the guard lets pass, and the state after it: one
case for each outcome of each state rule. -/
inductive ByteStep (s : State) : State → Prop
  | headerHeld (hs : s.state = .header) (hdeclared : s.declaredLength = 0#16)
      (hmatch : headerByte? s.headerMatchIndex = some s.inp.byte) (hlt : s.headerMatchIndex.toNat < 3) :
      ByteStep s (headerMatch s)
  | headerDone (hs : s.state = .header) (hdeclared : s.declaredLength = 0#16)
      (hmatch : headerByte? s.headerMatchIndex = some s.inp.byte) (hlast : s.headerMatchIndex = 3#3) :
      ByteStep s (headerMatch s)
  | headerBroken (hs : s.state = .header) (hpartial : s.headerMatchIndex ≠ 0#3) : ByteStep s s.forceError
  | headerIdle (hs : s.state = .header) (hdeclared : s.declaredLength = 0#16) : ByteStep s s
  | address (hs : s.state = .address) : ByteStep s (addressStep s)
  | held (hcount : s.accCount = 0#3) (htwo : s.TakesTwo) : ByteStep s (firstOfTwo s)
  | lengthDone (b0 : Byte) (hs : s.state = .length) :
      ByteStep s ((((secondOfTwo b0 s).setLengths (s.inp.byte ++ b0) 0#17).goto .command).emitField .length
        (.int (s.inp.byte ++ b0)))
  | command (code : Byte) (cmd : Command) (hs : s.state = .command) :
      ByteStep s (commandResult code cmd (nextAfterCommand cmd) s)
  | ramAddressDone (b0 : Byte) (hs : s.state = .ramAddress) :
      ByteStep s (((secondOfTwo b0 s).goto .value).emitField .ramAddress (.int (s.inp.byte ++ b0)))
  | errorCode (hs : s.state = .errorCode) :
      ByteStep s (((onlyOfOne s).goto (onlyOfOne s).afterErrorCode).emitField .errorCode
        (.int (s.inp.byte.setWidth 16)))
  | valueSingle (hs : s.state = .value) (hcount : s.accCount = 0#3) :
      ByteStep s (((onlyOfOne s).goto (onlyOfOne s).afterChunk).emitField .value (.int (s.inp.byte.setWidth 16)))
  | valueDone (b0 : Byte) (hs : s.state = .value) (hcount : s.accCount ≠ 0#3) :
      ByteStep s (((secondOfTwo b0 s).goto (secondOfTwo b0 s).afterChunk).emitField .value (.int (s.inp.byte ++ b0)))
  | checksumDone (b0 : Byte) (hs : s.state = .checksum) :
      ByteStep s ((((secondOfTwo b0 s).setLengths 0#16 0#17).goto .header).emitField .checksum (.bytes s.inp.byte b0))

section
variable {s : State}

theorem headerStep_byteStep (hinv : s.Inv) (hs : s.state = .header) (hdeclared : s.declaredLength = 0#16) :
    ∃ t : State, headerStep s = .next t ∧ ByteStep s t := by
  by_cases hmatch : headerByte? s.headerMatchIndex = some s.inp.byte
  · refine ⟨_, headerStep_of_match hmatch, ?_⟩
    by_cases hlast : s.headerMatchIndex = 3#3
    · exact .headerDone hs hdeclared hmatch hlast
    · have hne : s.headerMatchIndex.toNat ≠ 3 := fun heq => hlast (BitVec.eq_of_toNat_eq heq)
      exact .headerHeld hs hdeclared hmatch (Nat.lt_of_le_of_ne hinv.index_le hne)
  · by_cases hfirst : s.headerMatchIndex = 0#3
    · have hbyte : s.inp.byte ≠ 0xFF#8 := fun hbyte => hmatch (by rw [hfirst, hbyte]; rfl)
      exact ⟨_, headerStep_of_idle hfirst hbyte, .headerIdle hs hdeclared⟩
    · exact ⟨_, headerStep_of_broken hinv.index_le hfirst hmatch, .headerBroken hs hfirst⟩

/-- Every state rule completes, with one of the outcomes above: the pattern's bytes run out only past index 3, and a second
checksum byte finds the first one held. -/
theorem stateRule_byteStep (hinv : s.Inv) (hheader : s.state = .header → s.declaredLength = 0#16) :
    ∃ t : State, stateRule s = .next t ∧ ByteStep s t := by
  cases hs : s.state with
  | header =>
    rw [stateRule_header hs]
    exact headerStep_byteStep hinv hs (hheader hs)
  | address => exact ⟨_, stateRule_address hs, .address hs⟩
  | length =>
    rw [stateRule_length hs]
    rcases hinv.held_cases (by rw [hs]; decide) with hfirst | ⟨hsecond, b0, hb⟩
    · exact ⟨_, rfl, lengthStep_first hfirst ▸ .held hfirst (.inl hs)⟩
    · exact ⟨_, rfl, lengthStep_second hsecond hb ▸ .lengthDone b0 hs⟩
  | command =>
    rw [stateRule_command hs, commandStep_eq (hinv.count_zero (.inr (.inl hs)))]
    exact ⟨_, rfl, .command _ _ hs⟩
  | ramAddress =>
    rw [stateRule_ramAddress hs]
    rcases hinv.held_cases (by rw [hs]; decide) with hfirst | ⟨hsecond, b0, hb⟩
    · exact ⟨_, rfl, ramAddressStep_first hfirst ▸ .held hfirst (.inr (.inl hs))⟩
    · exact ⟨_, rfl, ramAddressStep_second hsecond hb ▸ .ramAddressDone b0 hs⟩
  | errorCode =>
    rw [stateRule_errorCode hs]
    exact ⟨_, rfl, errorCodeStep_single (hinv.count_zero (.inr (.inr hs))) ▸ .errorCode hs⟩
  | value =>
    rw [stateRule_value hs]
    rcases hinv.held_cases (by rw [hs]; decide) with hfirst | ⟨hsecond, b0, hb⟩
    · by_cases hremaining : 2 ≤ s.remaining
      · exact ⟨_, rfl, valueStep_first hfirst hremaining ▸ .held hfirst (.inr (.inr (.inl ⟨hs, hremaining⟩)))⟩
      · exact ⟨_, rfl, valueStep_single hs hfirst (by omega) ▸ .valueSingle hs hfirst⟩
    · exact ⟨_, rfl, valueStep_second hs hsecond hb ▸ .valueDone b0 hs (by rw [hsecond]; decide)⟩
  | checksum =>
    rw [stateRule_checksum hs]
    rcases hinv.held_cases (by rw [hs]; decide) with hfirst | ⟨hsecond, b0, hb⟩
    · exact ⟨_, checksumStep_first hfirst, .held hfirst (.inr (.inr (.inr hs)))⟩
    · exact ⟨_, checksumStep_second hsecond hb, .checksumDone b0 hs⟩

variable {c : Cycle} {rest : List Cycle}

theorem step_byteStep (hinv : s.Inv) (htakes : s.TakesByte c rest) :
    ∃ t : State, step s = .next t ∧ ByteStep (s.receive c rest) t := by
  rw [step_takes htakes]
  exact stateRule_byteStep (hinv.receive c rest) (htakes.declaredLength_eq_zero_of_header hinv)

theorem byteStep_of_step {t : State} (hinv : s.Inv) (htakes : s.TakesByte c rest) (h : step s = .next t) :
    ByteStep (s.receive c rest) t := by
  obtain ⟨u, hstep, hbyte⟩ := step_byteStep hinv htakes
  exact Host.Outcome.next.inj (hstep.symm.trans h) ▸ hbyte

end

end Sys2Proof.Machine
end

section
/-! The invariant (spec/10_state.md R14, R18 to R24, R31, R32): it holds at packet start, every byte keeps it, and with it
every cycle completes. -/

namespace Sys2Proof.Machine

/-! ### The invariant in HEADER -/

theorem inv_of_header {s : State} (hs : s.state = .header) (hcount : s.accCount = s.headerMatchIndex)
    (hindex : s.headerMatchIndex.toNat ≤ 3) (hbytes : s.accBytes.length ≤ 4)
    (hheld : s.accCount ≠ 0#3 → s.accBytes = headerPattern.take s.accCount.toNat)
    (hlengths : s.declaredLength = 0#16 ∧ s.consumedLength = 0#17 ∨
      s.declaredLength = 1#16 ∧ s.consumedLength = 1#17 ∧ s.headerMatchIndex ≠ 0#3) : s.Inv where
  count_le := hcount ▸ hindex
  index_le := hindex
  bytes_le := hbytes
  field_bytes hne := by
    have hle : s.accCount.toNat ≤ headerPattern.length := (hcount ▸ hindex).trans (by decide)
    rw [hheld hne, List.length_take, min_eq_left hle]
  count_outside hne := absurd hs hne
  header_count _ := hcount
  count_zero h := by simp [hs] at h
  header_lengths _ := hlengths
  early_lengths h := by simp [hs] at h
  command_consumed h := by simp [hs] at h
  zero_length h := by
    rcases hlengths with ⟨_, hconsumed⟩ | ⟨hone, _⟩
    · exact hconsumed
    · rw [hone] at h
      exact absurd h (by decide)
  consumed_le hne := by
    rcases hlengths with ⟨hzero, _⟩ | ⟨hdeclared, hconsumed, _⟩
    · exact absurd hzero hne
    · rw [hdeclared, hconsumed]
      decide
  index_zero hne := absurd hs hne
  header_bytes _ := hheld
  after_command h := by simp [hs] at h
  value_partial h := by simp [hs] at h

/-- At packet start the invariant asks nothing more than the bound on the stale bytes. -/
theorem State.AtPacketStart.inv {s : State} (h : s.AtPacketStart) (hbytes : s.accBytes.length ≤ 4) : s.Inv :=
  inv_of_header h.state (h.accCount.trans h.headerMatchIndex.symm) (by rw [h.headerMatchIndex]; decide) hbytes
    (fun hne => absurd h.accCount hne) (.inl ⟨h.declaredLength, h.consumedLength⟩)

theorem overrunGuard_atPacketStart (s : State) : s.overrunGuard.AtPacketStart := ⟨rfl, rfl, rfl, rfl, rfl⟩

theorem resetBlock_atPacketStart (s : State) : s.resetBlock.AtPacketStart := ⟨rfl, rfl, rfl, rfl, rfl⟩

theorem reset_atPacketStart : State.reset.AtPacketStart := ⟨rfl, rfl, rfl, rfl, rfl⟩

/-- Settles O35: the registers of `State.reset`, one by one. -/
theorem resetState : Obligations.ResetState := by
  unfold Obligations.ResetState
  exact ⟨rfl, rfl, rfl, rfl, rfl, rfl, rfl, rfl, reset_atPacketStart⟩

/-- Settles O40: the state after reset is at packet start with no bytes held. -/
theorem invariantAtReset : Obligations.InvariantAtReset := reset_atPacketStart.inv (Nat.zero_le 4)

/-! ### The invariant outside HEADER with no byte held -/

/-- What the invariant says of the two lengths in a packet state other than HEADER. -/
structure LengthsFit (p : PacketState) (declared : BitVec 16) (consumed : BitVec 17) : Prop where
  early : p = .address ∨ p = .length → declared = 0#16 ∧ consumed = 0#17
  command : p = .command → consumed = 0#17
  zero : declared = 0#16 → consumed = 0#17
  le : declared ≠ 0#16 → consumed.toNat ≤ declared.toNat + 1
  after_command : p = .ramAddress ∨ p = .errorCode → consumed = if declared = 0#16 then 0#17 else 1#17

theorem lengthsFit_zero (p : PacketState) : LengthsFit p 0#16 0#17 :=
  ⟨fun _ => ⟨rfl, rfl⟩, fun _ => rfl, fun _ => rfl, fun h => absurd rfl h, fun _ => rfl⟩

theorem lengthsFit_command (declared : BitVec 16) : LengthsFit .command declared 0#17 :=
  ⟨by simp, fun _ => rfl, fun _ => rfl, fun _ => Nat.zero_le _, by simp⟩

/-- The packet states that follow COMMAND come with the command byte alone counted. -/
theorem lengthsFit_nextAfterCommand (cmd : Command) (declared : BitVec 16) :
    LengthsFit (nextAfterCommand cmd) declared (if declared = 0#16 then 0#17 else 1#17) where
  early h := by cases cmd <;> simp [nextAfterCommand, payloadClass, classEntry] at h
  command h := by cases cmd <;> simp [nextAfterCommand, payloadClass, classEntry] at h
  zero h := if_pos h
  le h := by rw [if_neg h]; exact Nat.le_add_left _ _
  after_command _ := rfl

/-- Within its bound `consumed_length` is not cut to its 17 bits (R24). -/
theorem toNat_counted {s : State} {n : Nat} (hdeclared : s.declaredLength ≠ 0#16)
    (hle : s.consumedLength.toNat + n ≤ s.declaredLength.toNat + 1) :
    (s.counted n).toNat = s.consumedLength.toNat + n := by
  have hlt := s.declaredLength.isLt
  rw [State.counted, if_neg hdeclared, BitVec.toNat_add, BitVec.toNat_ofNat]
  omega

/-- VALUE and CHECKSUM ask of the lengths only the bound of R24. -/
theorem lengthsFit_counted {s : State} (hinv : s.Inv) {n : Nat} {p : PacketState} (hp : p = .value ∨ p = .checksum)
    (hle : s.declaredLength ≠ 0#16 → s.consumedLength.toNat + n ≤ s.declaredLength.toNat + 1) :
    LengthsFit p s.declaredLength (s.counted n) where
  early h := by rcases hp with rfl | rfl <;> simp at h
  command h := by rcases hp with rfl | rfl <;> simp at h
  zero h := (if_pos h).trans (hinv.zero_length h)
  le h := by rw [toNat_counted h (hle h)]; exact hle h
  after_command h := by rcases hp with rfl | rfl <;> simp at h

theorem inv_of_lengthsFit {s : State} (hs : s.state ≠ .header) (hcount : s.accCount = 0#3)
    (hindex : s.headerMatchIndex = 0#3) (hbytes : s.accBytes.length ≤ 4)
    (hlengths : LengthsFit s.state s.declaredLength s.consumedLength) : s.Inv where
  count_le := by rw [hcount]; exact Nat.zero_le 3
  index_le := by rw [hindex]; exact Nat.zero_le 3
  bytes_le := hbytes
  field_bytes hne := absurd hcount hne
  count_outside _ := by rw [hcount]; exact Nat.zero_le 1
  header_count h := absurd h hs
  count_zero _ := hcount
  header_lengths h := absurd h hs
  early_lengths := hlengths.early
  command_consumed := hlengths.command
  zero_length := hlengths.zero
  consumed_le := hlengths.le
  index_zero _ := hindex
  header_bytes h := absurd h hs
  after_command := hlengths.after_command
  value_partial _ hne := absurd hcount hne

/-! ### Every byte keeps the invariant -/

theorem afterErrorCode_cases (s : State) : s.afterErrorCode = .value ∨ s.afterErrorCode = .checksum := by
  unfold State.afterErrorCode
  split
  · exact .inr rfl
  · exact .inl rfl

theorem afterChunk_cases (s : State) : s.afterChunk = .value ∨ s.afterChunk = .checksum := by
  unfold State.afterChunk
  split
  · exact .inr rfl
  · exact .inl rfl

section
variable {s t : State}

/-- A completed field of `n` bytes leaves VALUE or CHECKSUM with the invariant. -/
theorem inv_of_counted (hinv : s.Inv) (hs : s.state ≠ .header) {n : Nat}
    (hle : s.declaredLength ≠ 0#16 → s.consumedLength.toNat + n ≤ s.declaredLength.toNat + 1)
    (hp : t.state = .value ∨ t.state = .checksum) (hcount : t.accCount = 0#3)
    (hindex : t.headerMatchIndex = s.headerMatchIndex) (hbytes : t.accBytes.length ≤ 4)
    (hdeclared : t.declaredLength = s.declaredLength) (hconsumed : t.consumedLength = s.counted n) : t.Inv := by
  have hstate : t.state ≠ .header := by rcases hp with h | h <;> rw [h] <;> decide
  refine inv_of_lengthsFit hstate hcount (hindex.trans (hinv.index_zero hs)) hbytes ?_
  rw [hdeclared, hconsumed]
  exact lengthsFit_counted hinv hp hle

/-- A held first byte: the field in progress has one byte. -/
theorem State.Inv.firstOfTwo (hinv : s.Inv) (htwo : s.TakesTwo) : (firstOfTwo s).Inv := by
  have hheader : s.state ≠ .header := by rcases htwo with h | h | ⟨h, _⟩ | h <;> rw [h] <;> decide
  have hsingle : ¬ (s.state = .address ∨ s.state = .command ∨ s.state = .errorCode) := by
    rcases htwo with h | h | ⟨h, _⟩ | h <;> simp [h]
  exact { hinv with
    count_le := Nat.le_of_ble_eq_true rfl
    bytes_le := Nat.le_of_ble_eq_true rfl
    field_bytes := fun _ => rfl
    count_outside := fun _ => le_rfl
    header_count := fun h => absurd h hheader
    count_zero := fun h => absurd h hsingle
    header_bytes := fun h => absurd h hheader
    value_partial := fun h _ => by
      have hs : s.state = .value := h
      have hremaining : 2 ≤ s.remaining := by simpa [State.TakesTwo, hs] using htwo
      rw [State.remaining] at hremaining
      simp only [firstOfTwo_consumedLength, firstOfTwo_declaredLength]
      omega }

theorem byteStep_inv (hinv : s.Inv) (hrunning : s.declaredLength = 0#16 ∨ s.consumedLength.toNat < s.declaredLength.toNat)
    (h : ByteStep s t) : t.Inv := by
  cases h with
  | headerHeld hs hdeclared hmatch hlt =>
    rw [headerMatch_of_lt hinv hs hmatch hlt]
    have hsucc : (s.headerMatchIndex + 1#3).toNat = s.headerMatchIndex.toNat + 1 := by bv_omega
    have hcount := hinv.header_count hs
    refine inv_of_header hs (congrArg (· + 1#3) hcount) (by simp only [hsucc]; omega) ?_ ?_ ?_
    · rw [List.length_take]
      exact min_le_right _ _
    · intro _
      simp only [hcount, hsucc]
    · exact .inl ⟨hdeclared, hinv.zero_length hdeclared⟩
  | headerDone hs hdeclared hmatch hlast =>
    rw [headerMatch_of_last hinv hs hmatch hlast hdeclared]
    refine inv_of_lengthsFit (by simp) rfl rfl (Nat.le_of_ble_eq_true rfl) ?_
    simp only [hdeclared, hinv.zero_length hdeclared]
    exact lengthsFit_zero _
  | headerBroken hs hpartial =>
    exact inv_of_header hs (hinv.header_count hs) hinv.index_le hinv.bytes_le (hinv.header_bytes hs)
      (.inr ⟨rfl, rfl, hpartial⟩)
  | headerIdle hs => exact hinv
  | address hs =>
    obtain ⟨hdeclared, hconsumed⟩ := hinv.early_lengths (.inl hs)
    refine inv_of_lengthsFit (by rw [addressStep_state]; decide) (hinv.count_zero (.inl hs))
      (hinv.index_zero (by rw [hs]; decide)) hinv.bytes_le ?_
    rw [addressStep, State.emit_declaredLength, State.emit_consumedLength, State.goto_declaredLength,
      State.goto_consumedLength, hdeclared, hconsumed]
    exact lengthsFit_zero _
  | held hcount htwo => exact hinv.firstOfTwo htwo
  | lengthDone b0 hs =>
    exact inv_of_lengthsFit (by simp) rfl (hinv.index_zero (by rw [hs]; decide)) (Nat.le_of_ble_eq_true rfl)
      (lengthsFit_command _)
  | command code cmd hs =>
    have hnext : nextAfterCommand cmd ≠ .header := by cases cmd <;> decide
    refine inv_of_lengthsFit hnext (hinv.count_zero (.inr (.inl hs))) (hinv.index_zero (by rw [hs]; decide))
      (Nat.le_of_ble_eq_true rfl) ?_
    simp only [commandResult, hinv.command_consumed hs]
    exact lengthsFit_nextAfterCommand cmd _
  | ramAddressDone b0 hs =>
    refine inv_of_counted hinv (by rw [hs]; decide) (n := 2) (fun hne => ?_) (.inl rfl) rfl rfl
      (Nat.le_of_ble_eq_true rfl) rfl rfl
    have hconsumed := hinv.after_command (.inl hs)
    rw [if_neg hne] at hconsumed
    have hlt := hrunning.resolve_left hne
    rw [hconsumed, BitVec.toNat_ofNat] at hlt ⊢
    omega
  | errorCode hs =>
    exact inv_of_counted hinv (by rw [hs]; decide) (n := 1)
      (fun hne => by have := hrunning.resolve_left hne; omega) (afterErrorCode_cases _)
      (hinv.count_zero (.inr (.inr hs))) rfl (Nat.le_of_ble_eq_true rfl) rfl rfl
  | valueSingle hs hcount =>
    exact inv_of_counted hinv (by rw [hs]; decide) (n := 1)
      (fun hne => by have := hrunning.resolve_left hne; omega) (afterChunk_cases _) hcount rfl
      (Nat.le_of_ble_eq_true rfl) rfl rfl
  | valueDone b0 hs hcount =>
    exact inv_of_counted hinv (by rw [hs]; decide) (n := 2)
      (fun _ => by have := hinv.value_partial hs hcount; omega) (afterChunk_cases _) rfl rfl
      (Nat.le_of_ble_eq_true rfl) rfl rfl
  | checksumDone b0 hs =>
    exact State.AtPacketStart.inv ⟨rfl, rfl, rfl, hinv.index_zero (by rw [hs]; decide), rfl⟩ (Nat.le_of_ble_eq_true rfl)

end

/-- Settles O41: reset and guard lead to packet start, an idle cycle reaches the ports alone, and every byte's outcome keeps
the invariant. -/
theorem stepKeepsInvariant : Obligations.StepKeepsInvariant := by
  unfold Obligations.StepKeepsInvariant
  intro s t hinv h
  rcases step_cases s with ⟨hnil, hstep⟩ | ⟨c, rest, _, hstep⟩
  · rw [hstep, takeCycle_nil hnil] at h; cases h
    exact hinv.receive _ _
  rcases hstep with ⟨_, hreset⟩ | ⟨_, _, hidle⟩ | ⟨_, _, hrefused⟩ | ⟨_, hguard⟩ | ⟨htakes, _⟩
  · rw [hreset] at h; cases h
    exact (resetBlock_atPacketStart _).inv (Nat.zero_le 4)
  · rw [hidle] at h; cases h
    exact hinv.receive _ _
  · rw [hrefused] at h; cases h
  · rw [hguard] at h; cases h
    exact (overrunGuard_atPacketStart _).inv (Nat.zero_le 4)
  · exact byteStep_inv (hinv.receive c rest) htakes.running (byteStep_of_step hinv htakes h)

/-- Settles O42: with the invariant and a reset behind it, no case of a step stops. -/
theorem byteStepsComplete : Obligations.ByteStepsComplete := by
  unfold Obligations.ByteStepsComplete
  intro s hinv hr
  have hnext : ∃ t : State, step s = .next t := by
    rcases step_cases s with ⟨_, hstep⟩ | ⟨c, rest, _, hstep⟩
    · exact ⟨_, hstep⟩
    rcases hstep with ⟨_, hreset⟩ | ⟨_, _, hidle⟩ | ⟨_, hunseen, _⟩ | ⟨_, hguard⟩ | ⟨htakes, _⟩
    · exact ⟨_, hreset⟩
    · exact ⟨_, hidle⟩
    · rw [hr] at hunseen; cases hunseen
    · exact ⟨_, hguard⟩
    · obtain ⟨t, hstep, _⟩ := step_byteStep hinv htakes
      exact ⟨t, hstep⟩
  obtain ⟨t, hstep⟩ := hnext
  exact ⟨t, hstep, step_resetSeen hr hstep⟩

end Sys2Proof.Machine
end

section
/-! Where the guard's condition comes from (spec/60_exceptions.md R143), and where the block stands after an error and after
a packet (R149). -/

namespace Sys2Proof.Machine

section
variable {s t : State}

/-- The states in which a byte can leave the guard's condition behind (R143). -/
def State.MayArm (s : State) : Prop :=
  (s.state = .header ∧ s.headerMatchIndex ≠ 0#3) ∨
  (s.state = .command ∧ s.declaredLength = 1#16) ∨
  (s.state = .ramAddress ∧ (s.declaredLength = 2#16 ∨ s.declaredLength = 3#16)) ∨
  (s.state = .errorCode ∧ s.declaredLength = 2#16) ∨
  (s.state = .value ∧ s.declaredLength.toNat ≤ s.consumedLength.toNat + 2)

/-- With the command byte alone counted before it, a field of `n` bytes reaches the declared length where that is at most
`n + 1`. -/
theorem declaredLength_le_of_after_command (hinv : s.Inv) (hs : s.state = .ramAddress ∨ s.state = .errorCode) {n : Nat}
    (hdeclared : s.declaredLength ≠ 0#16) (hn : n ≤ 2)
    (hreached : s.declaredLength.toNat ≤ (s.counted n).toNat) : s.declaredLength.toNat ≤ n + 1 := by
  have hconsumed := hinv.after_command hs
  rw [if_neg hdeclared] at hconsumed
  rw [State.counted, if_neg hdeclared, hconsumed, BitVec.toNat_add, BitVec.toNat_ofNat, BitVec.toNat_ofNat] at hreached
  omega

/-- Only the declared lengths above the one byte counted so far let a byte of the field pass. -/
theorem one_lt_declaredLength_of_after_command (hinv : s.Inv) (hs : s.state = .ramAddress ∨ s.state = .errorCode)
    (hdeclared : s.declaredLength ≠ 0#16)
    (hrunning : s.declaredLength = 0#16 ∨ s.consumedLength.toNat < s.declaredLength.toNat) :
    1 < s.declaredLength.toNat := by
  have hlt := hrunning.resolve_left hdeclared
  have hconsumed := hinv.after_command hs
  rw [if_neg hdeclared] at hconsumed
  rwa [hconsumed] at hlt

theorem byteStep_mayArm (hinv : s.Inv)
    (hrunning : s.declaredLength = 0#16 ∨ s.consumedLength.toNat < s.declaredLength.toNat) (h : ByteStep s t)
    (hdeclared : t.declaredLength ≠ 0#16) (hreached : t.declaredLength.toNat ≤ t.consumedLength.toNat) : s.MayArm := by
  cases h with
  | headerHeld hs hzero hmatch hlt =>
    rw [headerMatch_of_lt hinv hs hmatch hlt] at hdeclared
    exact absurd hzero hdeclared
  | headerDone hs hzero hmatch hlast =>
    rw [headerMatch_of_last hinv hs hmatch hlast hzero] at hdeclared
    exact absurd hzero hdeclared
  | headerBroken hs hpartial => exact .inl ⟨hs, hpartial⟩
  | headerIdle hs hzero => exact absurd hzero hdeclared
  | address hs => exact absurd (hinv.early_lengths (.inl hs)).1 hdeclared
  | held _ _ => exact absurd (hrunning.resolve_left hdeclared) (Nat.not_lt.2 hreached)
  | lengthDone b0 hs =>
    have hzero : (s.inp.byte ++ b0 : BitVec 16).toNat = 0 := Nat.le_zero.1 hreached
    exact absurd (BitVec.eq_of_toNat_eq hzero) hdeclared
  | command code cmd hs =>
    have hne : s.declaredLength ≠ 0#16 := hdeclared
    have hcounted : (commandResult code cmd (nextAfterCommand cmd) s).consumedLength = 1#17 := by
      simp only [commandResult, if_neg hne, hinv.command_consumed hs]
      rfl
    rw [hcounted] at hreached
    have hle : s.declaredLength.toNat ≤ 1 := hreached
    have hone : s.declaredLength = 1#16 := by bv_omega
    exact .inr (.inl ⟨hs, hone⟩)
  | ramAddressDone b0 hs =>
    have hle := declaredLength_le_of_after_command hinv (.inl hs) hdeclared le_rfl hreached
    have hlt := one_lt_declaredLength_of_after_command hinv (.inl hs) hdeclared hrunning
    have hlength : s.declaredLength = 2#16 ∨ s.declaredLength = 3#16 := by bv_omega
    exact .inr (.inr (.inl ⟨hs, hlength⟩))
  | errorCode hs =>
    have hle := declaredLength_le_of_after_command hinv (.inr hs) hdeclared (by decide) hreached
    have hlt := one_lt_declaredLength_of_after_command hinv (.inr hs) hdeclared hrunning
    have hlength : s.declaredLength = 2#16 := by bv_omega
    exact .inr (.inr (.inr (.inl ⟨hs, hlength⟩)))
  | valueSingle hs hcount =>
    have hlt := hrunning.resolve_left hdeclared
    have hcounted := toNat_counted (s := s) (n := 1) hdeclared (by omega)
    have hle : s.declaredLength.toNat ≤ (s.counted 1).toNat := hreached
    exact .inr (.inr (.inr (.inr ⟨hs, by omega⟩)))
  | valueDone b0 hs hcount =>
    have hroom := hinv.value_partial hs hcount
    have hcounted := toNat_counted (s := s) (n := 2) hdeclared (by omega)
    have hle : s.declaredLength.toNat ≤ (s.counted 2).toNat := hreached
    exact .inr (.inr (.inr (.inr ⟨hs, by omega⟩)))
  | checksumDone b0 hs => exact absurd rfl hdeclared

/-- Of the outcomes of a byte only CHECKSUM's second byte reports a Checksum, and it closes the packet (R134). -/
theorem byteStep_checksum_atPacketStart (hinv : s.Inv) (hout : s.out = none) (h : ByteStep s t) {e : Element}
    (he : t.out = some e) (hkind : e.kind = .checksum) : t.AtPacketStart := by
  cases h with
  | headerHeld hs hzero hmatch hlt =>
    rw [headerMatch_of_lt hinv hs hmatch hlt] at he
    simp [hout] at he
  | headerDone hs hzero hmatch hlast =>
    rw [headerMatch_of_last hinv hs hmatch hlast hzero] at he
    obtain rfl := Option.some.inj he
    cases hkind
  | headerBroken => simp [hout] at he
  | headerIdle => simp [hout] at he
  | held => simp [hout] at he
  | checksumDone b0 hs => exact ⟨rfl, rfl, rfl, hinv.index_zero (by rw [hs]; decide), rfl⟩
  | _ =>
    obtain rfl := Option.some.inj he
    cases hkind

end

/-- Settles O48: the outcomes of a byte, one by one, with what the invariant says of the lengths before it. -/
theorem whereOverrunsArise : Obligations.WhereOverrunsArise := by
  unfold Obligations.WhereOverrunsArise
  intro s t c rest hinv htakes hstep hdeclared hreached
  have hbyte := byteStep_of_step hinv htakes hstep
  exact byteStep_mayArm (s := s.receive c rest) (hinv.receive c rest) htakes.running hbyte hdeclared hreached

/-! ### Resynchronisation -/

/-- At packet start, with a reset behind it, the block differs from a freshly reset one in nothing that a later step
reads. -/
theorem State.AtPacketStart.sameToLaterSteps {s : State} (h : s.AtPacketStart) (hr : s.resetSeen = true) :
    s.SameToLaterSteps (State.reset.withStream s.pending) where
  state := h.state
  accCount := h.accCount
  headerMatchIndex := h.headerMatchIndex
  declaredLength := h.declaredLength
  consumedLength := h.consumedLength
  resetSeen := hr
  pending := rfl
  accBytes hne := absurd h.accCount hne
  packetStartTime hne := absurd h.accCount hne

/-- Settles O55: both elements leave the block at packet start, and what a reset would change besides never shows. -/
theorem errorAndChecksumResynchronise : Obligations.ErrorAndChecksumResynchronise := by
  unfold Obligations.ErrorAndChecksumResynchronise
  intro s t c rest e hn hstep he hkind hinv
  have hclosed : t.AtPacketStart ∧ s.resetSeen = true := by
    rcases step_out_cases hn hstep he with ⟨hover, rfl, _⟩ | ⟨htakes, _, hne, _⟩
    · exact ⟨overrunGuard_atPacketStart _, hover.reset⟩
    · have hbyte := byteStep_of_step hinv htakes hstep
      exact ⟨byteStep_checksum_atPacketStart (hinv.receive c rest) rfl hbyte he (hkind.resolve_left hne), htakes.reset⟩
  obtain ⟨hstart, hr⟩ := hclosed
  refine ⟨hstart, fun k => ?_⟩
  have hsame := hstart.sameToLaterSteps (step_resetSeen hr hstep)
  rw [step_pending hn hstep] at hsame
  exact unreadRegistersNeverShow k t _ hsame

end Sys2Proof.Machine
end

section
/-! Idle cycles in a stream (spec/20_memory.md R44, spec/60_exceptions.md R146): a run of a stream with them and without
them. -/

namespace Sys2Proof.Machine

/-- No step looks at the ports of the cycle before. -/
theorem step_eq_of_registers_eq {s t : State} (h : s.registers = t.registers) {c : Cycle} {rest : List Cycle}
    (hn : s.pending = c :: rest) : step s = step t := by
  have hn' : t.pending = c :: rest := (congrArg State.pending h).symm.trans hn
  have hreceive : s.registers.receive c rest = t.registers.receive c rest := congrArg _ h
  rw [step, step, takeCycle_cons hn, takeCycle_cons hn']
  exact congrArg runCycle hreceive

theorem runStream_nil (s : State) : runStream [] s = some ([], (s.withStream []).registers) := rfl

/-- A stream is its first cycle, then the rest of it. -/
theorem runStream_cons {s t : State} {c : Cycle} {cs : List Cycle} (h : step (s.withStream (c :: cs)) = .next t) :
    runStream (c :: cs) s = (runStream cs t).map fun r => (t.out.toList ++ r.1, r.2) := by
  have hpending : t.withStream cs = t := by rw [← step_pending rfl h]; rfl
  rw [runStream, List.length_cons, collect_next h, runStream, hpending]
  simp only [Option.map_map, Function.comp_def]

theorem runStream_cons_eq_none {s : State} {c : Cycle} {cs : List Cycle}
    (h : ∀ t : State, step (s.withStream (c :: cs)) ≠ .next t) : runStream (c :: cs) s = none := by
  rw [runStream, List.length_cons, collect_succ_eq_none h, Option.map_none]

/-- What the ports show before a stream does not matter for it, nor what was pending. -/
theorem runStream_eq_of_registers_eq {s t : State} (cs : List Cycle)
    (h : (s.withStream cs).registers = (t.withStream cs).registers) : runStream cs s = runStream cs t := by
  cases cs with
  | nil => rw [runStream_nil, runStream_nil, h]
  | cons c cs =>
    have hstep := step_eq_of_registers_eq h rfl
    by_cases hnext : ∃ u : State, step (s.withStream (c :: cs)) = .next u
    · obtain ⟨u, hu⟩ := hnext
      rw [runStream_cons hu, runStream_cons (hstep.symm.trans hu)]
    · have hstop : ∀ u : State, step (s.withStream (c :: cs)) ≠ .next u := fun u hu => hnext ⟨u, hu⟩
      rw [runStream_cons_eq_none hstop, runStream_cons_eq_none (hstep ▸ hstop)]

/-- An idle cycle at the head of a stream only reaches the ports. -/
theorem runStream_idle {c : Cycle} (hrst : c.rst = false) (hv : c.valid = false) (cs : List Cycle) (s : State) :
    runStream (c :: cs) s = runStream cs s := by
  rw [runStream_cons (step_idle rfl hv hrst), State.receive_out, Option.toList_none]
  simp only [List.nil_append, Prod.mk.eta, Option.map_id']
  exact runStream_eq_of_registers_eq cs rfl

/-- Two streams that do the same after any next state do the same after their common first cycle. -/
theorem runStream_cons_congr (c : Cycle) {cs cs' : List Cycle} (s : State)
    (h : ∀ t : State, runStream cs t = runStream cs' t) : runStream (c :: cs) s = runStream (c :: cs') s := by
  have hstep := step_withStream s c cs cs'
  rcases hfirst : step (s.withStream (c :: cs)) with t | r | r
  · rw [hfirst, mapNext] at hstep
    rw [runStream_cons hfirst, runStream_cons hstep, h t, State.withStream_out]
    exact congrArg _ (runStream_eq_of_registers_eq cs' rfl)
  · rw [hfirst, mapNext] at hstep
    rw [runStream_cons_eq_none (by simp [hfirst]), runStream_cons_eq_none (by simp [hstep])]
  · rw [hfirst, mapNext] at hstep
    rw [runStream_cons_eq_none (by simp [hfirst]), runStream_cons_eq_none (by simp [hstep])]

/-- Settles O39, by induction on the stream. -/
theorem idleCyclesAreInvisible : Obligations.IdleCyclesAreInvisible := by
  unfold Obligations.IdleCyclesAreInvisible
  intro s cs
  induction cs generalizing s with
  | nil => rfl
  | cons c cs ih =>
    by_cases hkept : (c.rst || c.valid) = true
    · rw [List.filter_cons_of_pos (p := fun c : Cycle => c.rst || c.valid) hkept]
      exact runStream_cons_congr c s fun t => ih t
    · obtain ⟨hrst, hv⟩ : c.rst = false ∧ c.valid = false := by simpa using hkept
      rw [List.filter_cons_of_neg (p := fun c : Cycle => c.rst || c.valid) hkept, runStream_idle hrst hv, ih]

end Sys2Proof.Machine
end

section
/-! Single fields: the broken header, LENGTH, ERROR_CODE, class C, and a byte in the zero-length lock-up (spec/41_framing.md
R96, R99, spec/42_command.md R107 to R110, spec/43_payload.md R127, R128, spec/70_reset_and_hazards.md R170). -/

namespace Sys2Proof.Machine

/-- Settles O16: the broken match arms the guard with the lengths 1 and 1, and the guard's condition does not look at the
next byte. -/
theorem headerBrokenMatch : Obligations.HeaderBrokenMatch := by
  unfold Obligations.HeaderBrokenMatch
  intro s c rest hinv htakes hs hpartial hbroken t
  refine ⟨?_, ?_⟩
  · calc step s = stateRule (s.receive c rest) := step_takes htakes
      _ = headerStep (s.receive c rest) := stateRule_header hs
      _ = .next (s.receive c rest).forceError := headerStep_of_broken hinv.index_le hpartial hbroken
      _ = .next t := rfl
  · rintro d rest' rfl hd
    have hover : t.Overruns d rest' := ⟨rfl, hd, htakes.reset, by simp [t], by simp [t]⟩
    exact ⟨step_overruns hover, overrunGuard_atPacketStart _⟩

/-- Settles O19: the LENGTH rule holds the first byte, and on the second it has both. -/
theorem lengthField : Obligations.LengthField := by
  unfold Obligations.LengthField
  intro s c0 c1 rest _ htakes hb1 hs hcount t
  refine ⟨?_, ?_⟩
  · calc step s = stateRule (s.receive c0 (c1 :: rest)) := step_takes htakes
      _ = .next (lengthStep (s.receive c0 (c1 :: rest))) := stateRule_length hs
      _ = .next t := congrArg _ (lengthStep_first hcount)
  · calc step t = stateRule (t.receive c1 rest) := step_takes (htakes.firstOfTwo hb1)
      _ = .next (lengthStep (t.receive c1 rest)) := stateRule_length hs
      _ = .next ((((secondOfTwo c0.byte (t.receive c1 rest)).setLengths (c1.byte ++ c0.byte) 0#17).goto .command).emitField
            .length (.int (c1.byte ++ c0.byte))) := congrArg _ (lengthStep_second rfl rfl)
      _ = _ := rfl

/-! ### ERROR_CODE -/

section
variable {s : State} {c : Cycle} {rest : List Cycle}

/-- After COMMAND the byte of class R or S overruns exactly a declared length of 1. -/
theorem State.Inv.overruns_of_declaredLength_eq_one (hinv : s.Inv) (hs : s.state = .ramAddress ∨ s.state = .errorCode)
    (hn : s.pending = c :: rest) (hb : c.isByte = true) (hr : s.resetSeen = true) (hdeclared : s.declaredLength = 1#16) :
    s.Overruns c rest := by
  have hconsumed := hinv.after_command hs
  rw [hdeclared] at hconsumed
  exact ⟨hn, hb, hr, by rw [hdeclared]; decide, by rw [hdeclared, hconsumed]; decide⟩

theorem State.Inv.takesByte_of_declaredLength_ne_one (hinv : s.Inv) (hs : s.state = .ramAddress ∨ s.state = .errorCode)
    (hn : s.pending = c :: rest) (hb : c.isByte = true) (hr : s.resetSeen = true) (hdeclared : s.declaredLength ≠ 1#16) :
    s.TakesByte c rest := by
  refine (takesByte_or_overruns hn hb hr).resolve_right fun hover => hdeclared ?_
  have hconsumed := hinv.after_command hs
  rw [if_neg hover.declared] at hconsumed
  have hle : s.declaredLength.toNat ≤ 1 := by
    have hreached := hover.reached
    rwa [hconsumed] at hreached
  have hne := hover.declared
  bv_omega

/-- The error code is counted on top of the command byte. -/
theorem State.Inv.counted_one_of_errorCode (hinv : s.Inv) (hs : s.state = .errorCode) :
    s.counted 1 = if s.declaredLength = 0#16 then 0#17 else 2#17 := by
  rw [State.counted, hinv.after_command (.inr hs)]
  by_cases hzero : s.declaredLength = 0#16
  · simp only [if_pos hzero]
  · simp only [if_neg hzero]
    decide

end

/-- Settles O27: the guard fires exactly where the command byte alone reaches the declared length; otherwise the test of
R128 is on the lengths after the byte. -/
theorem errorCodeByte : Obligations.ErrorCodeByte := by
  unfold Obligations.ErrorCodeByte
  intro s c rest hinv hr hn hb hs
  refine ⟨fun hdeclared => step_overruns (hinv.overruns_of_declaredLength_eq_one (.inr hs) hn hb hr hdeclared), ?_⟩
  intro hdeclared n next
  refine ⟨?_, ?_⟩
  · have hremain : (s.declaredLength.toNat : Int) - (n.toNat : Int) = 2 ↔ s.declaredLength = 4#16 := by
      by_cases hzero : s.declaredLength = 0#16
      · simp [n, hzero]
      · simp only [n, if_neg hzero]
        bv_omega
    rw [← hremain]
    simp [next]
  · have hcounted : s.counted 1 = n := hinv.counted_one_of_errorCode hs
    have hcount : s.accCount = 0#3 := hinv.count_zero (.inr (.inr hs))
    have hnext : (onlyOfOne (s.receive c rest)).afterErrorCode = next := by
      simp only [next, ← hcounted]
      rfl
    calc step s = stateRule (s.receive c rest) :=
          step_takes (hinv.takesByte_of_declaredLength_ne_one (.inr hs) hn hb hr hdeclared)
      _ = .next (errorCodeStep (s.receive c rest)) := stateRule_errorCode hs
      _ = .next (((onlyOfOne (s.receive c rest)).goto next).emitField .errorCode (.int (c.byte.setWidth 16))) := by
          rw [errorCodeStep_single (s := s.receive c rest) hcount, hnext]
          rfl
      _ = _ := by rw [← hcounted]; rfl

/-! ### Class C -/

theorem nextAfterCommand_of_mem_classC :
    ∀ b ∈ ([0x01#8, 0x06#8, 0x08#8, 0x10#8] : List Byte), nextAfterCommand (decodeCommand b) = .checksum := by decide

/-- Settles O21: the instructions themselves; then the step of their byte leaves CHECKSUM with that byte alone counted,
which a declared length of 1 is reached by. -/
theorem classCCommands : Obligations.ClassCCommands := by
  unfold Obligations.ClassCCommands
  refine ⟨fun s h => ⟨exec_eq_commandResult h .ping, exec_eq_commandResult h .factoryReset,
    exec_eq_commandResult h .reboot, exec_eq_commandResult h .clear⟩, ?_⟩
  intro s t c rest hinv htakes hs hclass hstep
  obtain rfl := Host.Outcome.next.inj ((step_command hinv htakes hs).symm.trans hstep)
  rw [nextAfterCommand_of_mem_classC c.byte hclass] at hstep ⊢
  have hconsumed : s.consumedLength = 0#17 := hinv.command_consumed hs
  refine ⟨?_, ?_⟩
  · rintro hdeclared d r rfl hd
    refine step_overruns ⟨rfl, hd, htakes.reset, ?_, ?_⟩
    · simp [commandResult, hdeclared]
    · simp [commandResult, hdeclared, hconsumed]
  · rintro hdeclared x0 x1 r rfl hx0 hx1
    have htakes' : (commandResult c.byte (decodeCommand c.byte) .checksum (s.receive c (x0 :: x1 :: r))).TakesByte x0
        (x1 :: r) := by
      refine ⟨rfl, hx0, htakes.reset, ?_⟩
      by_cases hzero : s.declaredLength = 0#16
      · exact .inl hzero
      · simp only [commandResult, State.receive_declaredLength, State.receive_consumedLength, hconsumed, if_neg hzero]
        right
        bv_omega
    have hcount : (s.receive c (x0 :: x1 :: r)).accCount = 0#3 := hinv.count_zero (.inr (.inl hs))
    obtain ⟨hfirst, hsecond⟩ := checksumField _ x0 x1 r htakes' hx1 rfl hcount
    exact ⟨_, _, hfirst, rfl, hsecond, rfl, ⟨rfl, rfl, rfl, hinv.index_zero (by rw [hs]; decide), rfl⟩, rfl⟩

/-! ### The zero-length lock-up -/

/-- With no declared length no count is `declared_length - 2`. -/
theorem afterChunk_of_declaredLength_eq_zero {s : State} (h : s.declaredLength = 0#16) : s.afterChunk = .value := by
  rw [State.afterChunk, h, if_neg]
  rw [BitVec.toNat_ofNat]
  omega

/-- A byte in the lock-up is a 1-byte chunk: `remaining` is negative, whatever has been counted. -/
theorem valueStep_of_locked {s : State} (h : s.Locked) :
    valueStep s = ((onlyOfOne s).goto .value).emitField .value (.int (s.inp.byte.setWidth 16)) := by
  have hremaining : s.remaining ≤ 1 := by
    rw [State.remaining, h.declaredLength, BitVec.toNat_ofNat]
    omega
  have hnext : (onlyOfOne s).afterChunk = .value := afterChunk_of_declaredLength_eq_zero h.declaredLength
  rw [valueStep_single h.state h.accCount hremaining, hnext]

theorem State.Locked.receive {s : State} (h : s.Locked) (c : Cycle) (rest : List Cycle) : (s.receive c rest).Locked :=
  ⟨h.state, h.declaredLength, h.accCount⟩

/-- Settles O32: the guard cannot fire without a declared length, and VALUE reports the byte and stays. -/
theorem zeroLengthLockUpIsKept : Obligations.ZeroLengthLockUpIsKept := by
  unfold Obligations.ZeroLengthLockUpIsKept
  intro s t hlocked hnoreset h
  rcases step_cases s with ⟨hnil, hstep⟩ | ⟨c, rest, hn, hstep⟩
  · rw [hstep, takeCycle_nil hnil] at h; cases h
    refine ⟨hlocked.receive _ _, fun c rest hn => ?_⟩
    rw [hnil] at hn; cases hn
  rcases hstep with ⟨hrst, _⟩ | ⟨_, hv, hidle⟩ | ⟨_, _, hrefused⟩ | ⟨hover, _⟩ | ⟨htakes, hrule⟩
  · rw [hnoreset c rest hn] at hrst; cases hrst
  · rw [hidle] at h; cases h
    refine ⟨hlocked.receive _ _, fun c' rest' hn' hb => ?_⟩
    obtain ⟨rfl, _⟩ := List.cons.inj (hn.symm.trans hn')
    rw [((isByte_iff _).1 hb).1] at hv; cases hv
  · rw [hrefused] at h; cases h
  · exact absurd hlocked.declaredLength hover.declared
  · have hlocked' := hlocked.receive c rest
    rw [hrule, stateRule_value hlocked'.state, valueStep_of_locked hlocked'] at h; cases h
    refine ⟨⟨rfl, hlocked.declaredLength, hlocked.accCount⟩, fun c' rest' hn' _ => ?_⟩
    obtain ⟨rfl, _⟩ := List.cons.inj (hn.symm.trans hn')
    rfl

end Sys2Proof.Machine
end

section
/-! Runs in phases: each field of a packet takes the block from one packet state to the next, with no field in progress at
either end (spec/41_framing.md R91, spec/43_payload.md R126 to R134). -/

namespace Sys2Proof.Machine

/-- The block stands in packet state `p` with no field in progress, the declared length `d` and `n` bytes counted; it has
been reset, and `stream` is still to come. -/
structure State.Awaits (s : State) (p : PacketState) (d : BitVec 16) (n : Nat) (stream : List Cycle) : Prop where
  state : s.state = p
  declaredLength : s.declaredLength = d
  consumedLength : s.consumedLength.toNat = n
  headerMatchIndex : s.headerMatchIndex = 0#3
  accCount : s.accCount = 0#3
  resetSeen : s.resetSeen = true
  pending : s.pending = stream

/-- `k` steps from `s` report `es` and end where the block awaits a field again. -/
def State.Reaches (s : State) (k : Nat) (es : List Element) (p : PacketState) (d : BitVec 16) (n : Nat)
    (stream : List Cycle) : Prop :=
  ∃ t : State, collect k s = some (es, t) ∧ t.Awaits p d n stream

/-- The state that has received the second byte of a field, with the first one held. -/
def State.receiveTwo (c0 c1 : Cycle) (rest : List Cycle) (s : State) : State :=
  (firstOfTwo (s.receive c0 (c1 :: rest))).receive c1 rest

/-- The count after a field of `k` bytes, when `n` bytes were counted before it and `d` is declared (R84). -/
def countAfter (d : BitVec 16) (n k : Nat) : Nat := if d = 0#16 then n else n + k

/-- The guard lets a byte pass (R93). -/
def Passes (d : BitVec 16) (n : Nat) : Prop := d = 0#16 ∨ n < d.toNat

theorem passes_zero (d : BitVec 16) : Passes d 0 := by
  by_cases h : d = 0#16
  · exact .inl h
  · exact .inr (by bv_omega)

/-! ### Runs -/

theorem collect_one {s t : State} (h : step s = .next t) : collect 1 s = some (t.out.toList, t) := by
  rw [collect_next h, collect_zero, Option.map_some, List.append_nil]

theorem collect_trans {s t u : State} {m n : Nat} {es es' : List Element} (h : collect m s = some (es, t))
    (h' : collect n t = some (es', u)) : collect (m + n) s = some (es ++ es', u) := by
  rw [collect_add, h, Option.bind_some, h', Option.map_some]

theorem collect_two {s t u : State} (h : step s = .next t) (h' : step t = .next u) :
    collect 2 s = some (t.out.toList ++ u.out.toList, u) :=
  collect_trans (collect_one h) (collect_one h')

section
variable {s : State} {p q : PacketState} {d d' : BitVec 16} {n n' k k' : Nat} {es es' : List Element}
variable {c c0 c1 : Cycle} {cs cs' rest : List Cycle}

theorem State.Awaits.reaches_zero (h : s.Awaits p d n rest) : s.Reaches 0 [] p d n rest := ⟨s, rfl, h⟩

theorem State.Reaches.trans (h : s.Reaches k es p d n cs)
    (h' : ∀ t : State, t.Awaits p d n cs → t.Reaches k' es' q d' n' cs') :
    s.Reaches (k + k') (es ++ es') q d' n' cs' := by
  obtain ⟨t, ht, hawaits⟩ := h
  obtain ⟨u, hu, hend⟩ := h' t hawaits
  exact ⟨u, collect_trans ht hu, hend⟩

theorem State.Awaits.atPacketStart (h : s.Awaits .header 0#16 0 rest) : s.AtPacketStart :=
  ⟨h.state, h.declaredLength, BitVec.eq_of_toNat_eq h.consumedLength, h.headerMatchIndex, h.accCount⟩

theorem State.AtPacketStart.awaits (h : s.AtPacketStart) (hr : s.resetSeen = true) :
    s.Awaits .header 0#16 0 s.pending :=
  ⟨h.state, h.declaredLength, by rw [h.consumedLength]; rfl, h.headerMatchIndex, h.accCount, hr, rfl⟩

/-- Outside HEADER the invariant leaves no partial header (R134). -/
theorem State.Inv.awaits (hinv : s.Inv) (hs : s.state ≠ .header) (hcount : s.accCount = 0#3)
    (hr : s.resetSeen = true) : s.Awaits s.state s.declaredLength s.consumedLength.toNat s.pending :=
  ⟨rfl, rfl, rfl, hinv.index_zero hs, hcount, hr, rfl⟩

theorem State.Inv.awaits_command (hinv : s.Inv) (hs : s.state = .command) (hr : s.resetSeen = true) :
    s.Awaits .command s.declaredLength 0 s.pending :=
  ⟨hs, rfl, by rw [hinv.command_consumed hs]; rfl, hinv.index_zero (by rw [hs]; decide),
    hinv.count_zero (.inr (.inl hs)), hr, rfl⟩

theorem State.Awaits.takesByte (h : s.Awaits p d n (c :: rest)) (hb : c.isByte = true) (hpass : Passes d n) :
    s.TakesByte c rest :=
  ⟨h.pending, hb, h.resetSeen, by rw [h.declaredLength, h.consumedLength]; exact hpass⟩

/-- The count does not wrap: a byte that the guard lets pass completes a field of at most two bytes (R24). -/
theorem State.Awaits.toNat_counted (h : s.Awaits p d n rest) (hpass : Passes d n) (hk : k ≤ 2) :
    (s.counted k).toNat = countAfter d n k := by
  rw [State.counted, countAfter, h.declaredLength]
  by_cases hzero : d = 0#16
  · rw [if_pos hzero, if_pos hzero, h.consumedLength]
  · have hlt := hpass.resolve_left hzero
    have hd := d.isLt
    rw [if_neg hzero, if_neg hzero, BitVec.toNat_add, BitVec.toNat_ofNat, h.consumedLength]
    omega

/-! ### Fields of one and of two bytes -/

/-- A state rule that completes on its first byte. -/
theorem State.Awaits.reaches_one {t : State} (h : s.Awaits p d n (c :: rest)) (hb : c.isByte = true)
    (hpass : Passes d n) (hrule : stateRule (s.receive c rest) = .next t) (ht : t.Awaits q d' n' cs) :
    s.Reaches 1 t.out.toList q d' n' cs :=
  ⟨t, collect_one ((step_takes (h.takesByte hb hpass)).trans hrule), ht⟩

/-- A state rule that holds the first byte and completes on the second. -/
theorem State.Awaits.reaches_two {u : State} (h : s.Awaits p d n (c0 :: c1 :: rest)) (hb0 : c0.isByte = true)
    (hb1 : c1.isByte = true) (hpass : Passes d n)
    (hfirst : stateRule (s.receive c0 (c1 :: rest)) = .next (firstOfTwo (s.receive c0 (c1 :: rest))))
    (hsecond : stateRule (s.receiveTwo c0 c1 rest) = .next u) (hu : u.Awaits q d' n' cs) :
    s.Reaches 2 u.out.toList q d' n' cs := by
  have htakes := h.takesByte hb0 hpass
  exact ⟨u, collect_two ((step_takes htakes).trans hfirst) ((step_takes (htakes.firstOfTwo hb1)).trans hsecond), hu⟩

/-! ### The phases of a packet after its header -/

/-- Taking the error leads to packet start (R93). -/
theorem State.Overruns.reaches (h : s.Overruns c rest) :
    s.Reaches 1 [spanElement .frameError .empty c c] .header 0#16 0 rest :=
  ⟨_, collect_one (step_overruns h), rfl, rfl, rfl, rfl, rfl, h.reset, rfl⟩

theorem State.Awaits.reaches_guard (h : s.Awaits p d n (c :: rest)) (hb : c.isByte = true) (hdeclared : d ≠ 0#16)
    (hreached : d.toNat ≤ n) : s.Reaches 1 [spanElement .frameError .empty c c] .header 0#16 0 rest :=
  State.Overruns.reaches ⟨h.pending, hb, h.resetSeen, h.declaredLength ▸ hdeclared,
    by rw [h.declaredLength, h.consumedLength]; exact hreached⟩

theorem State.Awaits.reaches_address (h : s.Awaits .address 0#16 0 (c :: rest)) (hb : c.isByte = true) :
    s.Reaches 1 [spanElement .address (int1 c) c c] .length 0#16 0 rest :=
  h.reaches_one hb (passes_zero _) (stateRule_address h.state) { h with state := rfl, pending := rfl }

theorem State.Awaits.reaches_length (h : s.Awaits .length 0#16 0 (c0 :: c1 :: rest)) (hb0 : c0.isByte = true)
    (hb1 : c1.isByte = true) :
    s.Reaches 2 [spanElement .length (int2 c0 c1) c0 c1] .command (c1.byte ++ c0.byte) 0 rest :=
  h.reaches_two hb0 hb1 (passes_zero _)
    ((stateRule_length (s := s.receive c0 (c1 :: rest)) h.state).trans (congrArg _ (lengthStep_first h.accCount)))
    ((stateRule_length (s := s.receiveTwo c0 c1 rest) h.state).trans (congrArg _ (lengthStep_second rfl rfl)))
    ⟨rfl, rfl, rfl, h.headerMatchIndex, rfl, h.resetSeen, rfl⟩

theorem State.Awaits.reaches_command (h : s.Awaits .command d 0 (c :: rest)) (hb : c.isByte = true) :
    s.Reaches 1 [spanElement (.command (decodeCommand c.byte)) (int1 c) c c]
      (nextAfterCommand (decodeCommand c.byte)) d (countAfter d 0 1) rest := by
  have hrule : stateRule (s.receive c rest) = .next (commandResult c.byte (decodeCommand c.byte)
      (nextAfterCommand (decodeCommand c.byte)) (s.receive c rest)) := by
    rw [stateRule_command (s := s.receive c rest) h.state, State.receive_inp, code_decodeByte,
      commandStep_eq (s := s.receive c rest) h.accCount]
  have hcounted := h.toNat_counted (k := 1) (passes_zero d) (by decide)
  exact h.reaches_one hb (passes_zero d) hrule
    ⟨rfl, h.declaredLength, hcounted, h.headerMatchIndex, h.accCount, h.resetSeen, rfl⟩

theorem State.Awaits.reaches_ramAddress (h : s.Awaits .ramAddress d n (c0 :: c1 :: rest)) (hb0 : c0.isByte = true)
    (hb1 : c1.isByte = true) (hpass : Passes d n) :
    s.Reaches 2 [spanElement .ramAddress (int2 c0 c1) c0 c1] .value d (countAfter d n 2) rest :=
  h.reaches_two hb0 hb1 hpass
    ((stateRule_ramAddress (s := s.receive c0 (c1 :: rest)) h.state).trans (congrArg _ (ramAddressStep_first h.accCount)))
    ((stateRule_ramAddress (s := s.receiveTwo c0 c1 rest) h.state).trans (congrArg _ (ramAddressStep_second rfl rfl)))
    ⟨rfl, h.declaredLength, h.toNat_counted hpass le_rfl, h.headerMatchIndex, rfl, h.resetSeen, rfl⟩

/-- After the error code CHECKSUM follows exactly where two bytes remain (R128). -/
theorem State.Awaits.reaches_errorCode (h : s.Awaits .errorCode d n (c :: rest)) (hb : c.isByte = true)
    (hpass : Passes d n) :
    s.Reaches 1 [spanElement .errorCode (int1 c) c c] (if d.toNat = countAfter d n 1 + 2 then .checksum else .value) d
      (countAfter d n 1) rest := by
  have hcounted := h.toNat_counted (k := 1) hpass (by decide)
  have hnext : (onlyOfOne (s.receive c rest)).afterErrorCode =
      if d.toNat = countAfter d n 1 + 2 then .checksum else .value := by
    rw [State.afterErrorCode]
    exact if_congr (by
      change (s.declaredLength.toNat : Int) - ((s.counted 1).toNat : Int) = 2 ↔ _
      rw [h.declaredLength, hcounted]
      omega) rfl rfl
  exact h.reaches_one hb hpass
    ((stateRule_errorCode (s := s.receive c rest) h.state).trans (congrArg _ (errorCodeStep_single h.accCount)))
    ⟨hnext, h.declaredLength, hcounted, h.headerMatchIndex, h.accCount, h.resetSeen, rfl⟩

theorem State.Awaits.reaches_checksum (h : s.Awaits .checksum d n (c0 :: c1 :: rest)) (hb0 : c0.isByte = true)
    (hb1 : c1.isByte = true) (hpass : Passes d n) :
    s.Reaches 2 [spanElement .checksum (.bytes c1.byte c0.byte) c0 c1] .header 0#16 0 rest :=
  h.reaches_two hb0 hb1 hpass
    ((stateRule_checksum (s := s.receive c0 (c1 :: rest)) h.state).trans (checksumStep_first h.accCount))
    ((stateRule_checksum (s := s.receiveTwo c0 c1 rest) h.state).trans (checksumStep_second rfl rfl))
    ⟨rfl, rfl, rfl, h.headerMatchIndex, rfl, h.resetSeen, rfl⟩

/-! ### VALUE (R129 to R132) -/

/-- Where VALUE goes with `n` bytes counted. -/
def valueNext (d : BitVec 16) (n : Nat) : PacketState := if n + 2 = d.toNat then .checksum else .value

theorem afterChunk_eq_valueNext {t : State} (hd : t.declaredLength = d) (hn : t.consumedLength.toNat = n) :
    t.afterChunk = valueNext d n := by
  rw [State.afterChunk, valueNext, hd, hn]
  exact if_congr (by omega) rfl rfl

theorem State.Awaits.remaining (h : s.Awaits p d n cs) : s.remaining = (d.toNat : Int) - n - 2 := by
  rw [State.remaining, h.declaredLength, h.consumedLength]

/-- With at most one byte before the checksum, the byte is a chunk of its own. -/
theorem State.Awaits.reaches_value_one (h : s.Awaits .value d n (c :: rest)) (hb : c.isByte = true)
    (hpass : Passes d n) (hfew : d.toNat ≤ n + 3) :
    s.Reaches 1 [spanElement .value (int1 c) c c] (valueNext d (countAfter d n 1)) d (countAfter d n 1) rest := by
  have hcounted := h.toNat_counted (k := 1) hpass (by decide)
  have hremaining : (s.receive c rest).remaining ≤ 1 := by
    have heq : (s.receive c rest).remaining = (d.toNat : Int) - n - 2 := h.remaining
    omega
  exact h.reaches_one hb hpass
    ((stateRule_value (s := s.receive c rest) h.state).trans
      (congrArg _ (valueStep_single h.state h.accCount hremaining)))
    ⟨afterChunk_eq_valueNext h.declaredLength hcounted, h.declaredLength, hcounted, h.headerMatchIndex, h.accCount,
      h.resetSeen, rfl⟩

/-- The first byte of a chunk of two. -/
theorem State.Awaits.valueStep_first (h : s.Awaits .value d n (c :: rest)) (hmany : n + 4 ≤ d.toNat) :
    stateRule (s.receive c rest) = .next (firstOfTwo (s.receive c rest)) := by
  have hremaining : 2 ≤ (s.receive c rest).remaining := by
    have heq : (s.receive c rest).remaining = (d.toNat : Int) - n - 2 := h.remaining
    omega
  exact (stateRule_value (s := s.receive c rest) h.state).trans (congrArg _ (Machine.valueStep_first h.accCount hremaining))

/-- With two bytes or more before the checksum, two bytes are a chunk. -/
theorem State.Awaits.reaches_value_two (h : s.Awaits .value d n (c0 :: c1 :: rest)) (hb0 : c0.isByte = true)
    (hb1 : c1.isByte = true) (hmany : n + 4 ≤ d.toNat) :
    s.Reaches 2 [spanElement .value (int2 c0 c1) c0 c1] (valueNext d (n + 2)) d (n + 2) rest := by
  have hpass : Passes d n := .inr (by omega)
  have hdeclared : d ≠ 0#16 := by rintro rfl; simp at hmany
  have hcounted : (s.counted 2).toNat = n + 2 := by
    rw [h.toNat_counted hpass le_rfl, countAfter, if_neg hdeclared]
  exact h.reaches_two hb0 hb1 hpass (h.valueStep_first hmany)
    ((stateRule_value (s := s.receiveTwo c0 c1 rest) h.state).trans (congrArg _ (valueStep_second h.state rfl rfl)))
    ⟨afterChunk_eq_valueNext h.declaredLength hcounted, h.declaredLength, hcounted, h.headerMatchIndex, rfl, h.resetSeen,
      rfl⟩

end

end Sys2Proof.Machine
end

section
/-! The value bytes of a packet (spec/43_payload.md R132, spec/70_reset_and_hazards.md R170): runs of VALUE for every number
of bytes. -/

namespace Sys2Proof.Machine

section
variable {s : State} {d : BitVec 16} {n : Nat} {cs rest : List Cycle}

/-! ### Case 1: value bytes left -/

theorem valueNext_of_eq (h : n + 2 = d.toNat) : valueNext d n = .checksum := if_pos h

theorem valueNext_of_ne (h : n + 2 ≠ d.toNat) : valueNext d n = .value := if_neg h

/-- Chunks of two, then one of one byte if a single byte is left, up to the checksum. -/
theorem State.Awaits.reaches_valueChunks (h : s.Awaits .value d n (cs ++ rest)) (hne : cs ≠ [])
    (hbytes : ∀ c ∈ cs, c.isByte = true) (hlength : n + 2 + cs.length = d.toNat) :
    s.Reaches cs.length (valueChunks cs) .checksum d (n + cs.length) rest := by
  induction cs using valueChunks.induct generalizing s n with
  | case1 c0 c1 cs ih =>
    obtain ⟨hb0, hrest⟩ := List.forall_mem_cons.1 hbytes
    obtain ⟨hb1, hrest⟩ := List.forall_mem_cons.1 hrest
    simp only [List.length_cons] at hlength
    have hchunk := State.Awaits.reaches_value_two h hb0 hb1 (by omega)
    cases cs with
    | nil =>
      simp only [List.length_nil] at hlength
      rwa [valueNext_of_eq (by omega)] at hchunk
    | cons c2 cs =>
      rw [valueNext_of_ne (by simp only [List.length_cons] at hlength; omega)] at hchunk
      have hrun := hchunk.trans fun t ht => ih ht (List.cons_ne_nil _ _) hrest (by omega)
      rwa [Nat.add_assoc n 2, Nat.add_comm 2] at hrun
  | case2 c =>
    have hb := hbytes c List.mem_cons_self
    simp only [List.length_singleton] at hlength
    have hdeclared : d ≠ 0#16 := by rintro rfl; simp at hlength
    have hlast := State.Awaits.reaches_value_one h hb (.inr (by omega)) (by omega)
    rwa [countAfter, if_neg hdeclared, valueNext_of_eq (by omega)] at hlast
  | case3 => exact absurd rfl hne

/-- Before the last value byte the block is still in VALUE: between chunks, or with one byte of a chunk held. -/
theorem State.Awaits.collect_value (h : s.Awaits .value d n (cs ++ rest)) (hbytes : ∀ c ∈ cs, c.isByte = true)
    (hlength : n + 2 + cs.length = d.toNat) {k : Nat} (hk : k < cs.length) :
    ∃ (es : List Element) (t : State), collect k s = some (es, t) ∧ t.state = .value := by
  induction cs using valueChunks.induct generalizing s n k with
  | case1 c0 c1 cs ih =>
    obtain ⟨hb0, hrest⟩ := List.forall_mem_cons.1 hbytes
    obtain ⟨hb1, hrest⟩ := List.forall_mem_cons.1 hrest
    simp only [List.length_cons] at hlength hk
    match k with
    | 0 => exact ⟨[], s, rfl, h.state⟩
    | 1 =>
      have hfirst := (step_takes (h.takesByte hb0 (.inr (by omega)))).trans (h.valueStep_first (by omega))
      exact ⟨_, _, collect_one hfirst, h.state⟩
    | k + 2 =>
      have hchunk := State.Awaits.reaches_value_two h hb0 hb1 (by omega)
      rw [valueNext_of_ne (by omega)] at hchunk
      obtain ⟨t, ht, hawaits⟩ := hchunk
      obtain ⟨es, u, hu, hstate⟩ := ih hawaits hrest (by omega) (Nat.lt_of_add_lt_add_right (n := 2) hk)
      exact ⟨_, u, Nat.add_comm k 2 ▸ collect_trans ht hu, hstate⟩
  | case2 c =>
    obtain rfl : k = 0 := Nat.lt_one_iff.1 hk
    exact ⟨[], s, rfl, h.state⟩
  | case3 => exact absurd hk (Nat.not_lt_zero k)

/-! ### Cases 2 and 3: no value byte left, and no declared length -/

/-- Bytes one by one up to the declared length, and the error on the byte after it. -/
theorem State.Awaits.reaches_value_overrun {x : Cycle} (h : s.Awaits .value d n (cs ++ x :: rest)) (hdeclared : d ≠ 0#16)
    (hshort : d.toNat ≤ n + 2) (hlength : cs.length = d.toNat - n) (hbytes : ∀ c ∈ cs ++ [x], c.isByte = true) :
    s.Reaches (cs.length + 1) (valueBytes cs ++ [spanElement .frameError .empty x x]) .header 0#16 0 rest := by
  induction cs generalizing s n with
  | nil =>
    simp only [List.length_nil] at hlength
    exact h.reaches_guard (hbytes x (by simp)) hdeclared (by omega)
  | cons c cs ih =>
    obtain ⟨hb, hrest⟩ := List.forall_mem_cons.1 hbytes
    simp only [List.length_cons] at hlength
    have hbyte := State.Awaits.reaches_value_one h hb (.inr (by omega)) (by omega)
    rw [countAfter, if_neg hdeclared, valueNext_of_ne (by omega)] at hbyte
    have hrun := hbyte.trans fun t ht => ih ht (by omega) (by omega) hrest
    rw [Nat.add_comm 1] at hrun
    exact hrun

/-- With no declared length every byte is a value of its own, for ever. -/
theorem State.Awaits.reaches_value_zero (h : s.Awaits .value 0#16 n (cs ++ rest)) (hbytes : ∀ c ∈ cs, c.isByte = true) :
    s.Reaches cs.length (valueBytes cs) .value 0#16 n rest := by
  induction cs generalizing s with
  | nil => exact h.reaches_zero
  | cons c cs ih =>
    obtain ⟨hb, hrest⟩ := List.forall_mem_cons.1 hbytes
    have hbyte := State.Awaits.reaches_value_one h hb (.inl rfl) (Nat.zero_le _)
    rw [countAfter, if_pos rfl, valueNext_of_ne (by simp)] at hbyte
    have hrun := hbyte.trans fun t ht => ih ht hrest
    rwa [Nat.add_comm 1] at hrun

end

/-- Settles O29: the run of VALUE in chunks, and its shorter runs. -/
theorem valuePhaseNormal : Obligations.ValuePhaseNormal := by
  unfold Obligations.ValuePhaseNormal
  intro s cs rest hinv hr hs hcount hlength hne hbytes hn
  have hawaits := hinv.awaits (by rw [hs]; decide) hcount hr
  rw [hs, hn] at hawaits
  refine ⟨?_, fun k hk => hawaits.collect_value hbytes hlength hk⟩
  obtain ⟨t, ht, hend⟩ := hawaits.reaches_valueChunks hne hbytes hlength
  exact ⟨t, ht, hend.state, hend.accCount, hend.declaredLength, by rw [hend.consumedLength]; omega, hend.pending⟩

/-- Settles O30: the run of VALUE past the declared length. -/
theorem valuePhaseOverrun : Obligations.ValuePhaseOverrun := by
  unfold Obligations.ValuePhaseOverrun
  intro s cs d rest hinv hr hs hcount hdeclared hshort hlength hbytes hn
  have hawaits := hinv.awaits (by rw [hs]; decide) hcount hr
  rw [hs, hn] at hawaits
  obtain ⟨t, ht, hend⟩ := hawaits.reaches_value_overrun hdeclared hshort hlength hbytes
  exact ⟨t, ht, hend.atPacketStart, hend.pending⟩

/-! ### From COMMAND to VALUE -/

/-- The bytes between COMMAND and the value bytes, by the class (R65). -/
def leadLength : PayloadClass → Nat
  | .ramAddress => 2
  | .statusError => 1
  | .unknown => 0
  | .noPayload => 0

section
variable {s : State} {d : BitVec 16} {n : Nat} {pre rest : List Cycle} {cls : PayloadClass}

/-- The RAM address of class R and the error code of class S lead to VALUE, where class U is already; only an error code
with two bytes after it leads elsewhere. -/
theorem State.Awaits.reaches_value_of_class (h : s.Awaits (classEntry cls) d n (pre ++ rest)) (hcls : cls ≠ .noPayload)
    (hlength : pre.length = leadLength cls) (hbytes : ∀ c ∈ pre, c.isByte = true) (hpass : pre ≠ [] → Passes d n)
    (herror : cls = .statusError → d.toNat ≠ countAfter d n 1 + 2) :
    s.Reaches pre.length (payloadElements cls pre) .value d (countAfter d n pre.length) rest := by
  cases cls with
  | noPayload => exact absurd rfl hcls
  | ramAddress =>
    obtain ⟨c0, c1, rfl⟩ := List.length_eq_two.1 hlength
    exact State.Awaits.reaches_ramAddress h (hbytes c0 (by simp)) (hbytes c1 (by simp)) (hpass (List.cons_ne_nil _ _))
  | statusError =>
    obtain ⟨c, rfl⟩ := List.length_eq_one_iff.1 hlength
    have herr := State.Awaits.reaches_errorCode h (hbytes c (by simp)) (hpass (List.cons_ne_nil _ _))
    rwa [if_neg (herror rfl)] at herr
  | unknown =>
    obtain rfl := List.length_eq_zero_iff.1 hlength
    rw [List.length_nil, countAfter, Nat.add_zero, ite_self]
    exact h.reaches_zero

end

/-- Settles O31: command byte, its class's fields and the values, all uncounted; a reset cycle leads out. -/
theorem zeroLengthLockUp : Obligations.ZeroLengthLockUp := by
  unfold Obligations.ZeroLengthLockUp
  intro s c pre cs rest hinv hr hs hdeclared hbytes hn hcls hlength
  have hawaits := hinv.awaits_command hs hr
  rw [hdeclared, hn] at hawaits
  obtain ⟨hb, hbytes⟩ := List.forall_mem_cons.1 hbytes
  obtain ⟨hpre, hcs⟩ := List.forall_mem_append.1 hbytes
  have hlead : pre.length = leadLength (payloadClass (decodeCommand c.byte)) := by
    rw [hlength]
    cases payloadClass (decodeCommand c.byte) <;> rfl
  have hrun := ((hawaits.reaches_command hb).trans fun t ht =>
    State.Awaits.reaches_value_of_class (List.append_assoc .. ▸ ht) hcls hlead hpre (fun _ => .inl rfl)
      (fun _ => by simp)).trans fun t ht => State.Awaits.reaches_value_zero ht hcs
  obtain ⟨t, ht, hend⟩ := hrun
  rw [List.append_assoc] at ht
  refine ⟨t, ht, hend.state, hend.declaredLength, hend.pending, ?_⟩
  rintro x r rfl hrst
  exact ⟨_, step_reset hend.pending hrst, resetBlock_atPacketStart _⟩

/-! ### Declared lengths too short for the class -/

/-- The declared lengths below this one leave a class no value byte before the checksum, or no room for the checksum. -/
def shortLimit : PayloadClass → Nat
  | .noPayload => 0
  | .ramAddress => 6
  | .statusError => 4
  | .unknown => 4

/-- The bytes between COMMAND and the one that draws the error. -/
def bytesBeforeError (cls : PayloadClass) (d : BitVec 16) : Nat :=
  if cls = .ramAddress ∧ d = 2#16 then 2 else d.toNat - 1

/-- With a length of 2 or more the fields before VALUE complete, and the rest of the bytes are those that
`State.Awaits.reaches_value_overrun` takes. -/
theorem bytesBeforeError_split {cls : PayloadClass} {d : BitVec 16} (hone : 1 < d.toNat)
    (hlimit : d.toNat < shortLimit cls) :
    leadLength cls ≤ bytesBeforeError cls d ∧
    bytesBeforeError cls d - leadLength cls = d.toNat - (1 + leadLength cls) ∧
    d.toNat ≤ 1 + leadLength cls + 2 := by
  cases cls with
  | noPayload => exact absurd hlimit (Nat.not_lt_zero _)
  | ramAddress =>
    simp only [shortLimit, leadLength, bytesBeforeError, true_and] at hlimit ⊢
    by_cases htwo : d = 2#16
    · rw [if_pos htwo, htwo]
      decide
    · rw [if_neg htwo]
      have hne : d.toNat ≠ 2 := fun h => htwo (BitVec.eq_of_toNat_eq h)
      omega
  | statusError =>
    simp only [shortLimit, leadLength, bytesBeforeError, reduceCtorEq, false_and, if_false] at hlimit ⊢
    omega
  | unknown =>
    simp only [shortLimit, leadLength, bytesBeforeError, reduceCtorEq, false_and, if_false] at hlimit ⊢
    omega

theorem kind_of_mem_valueBytes {cs : List Cycle} {e : Element} (h : e ∈ valueBytes cs) : e.kind = .value := by
  obtain ⟨c, _, rfl⟩ := List.mem_map.1 h
  rfl

/-- Before VALUE a class's own field is reported, and no FrameError. -/
theorem kind_of_mem_payloadElements {cls : PayloadClass} {pre : List Cycle} (hlength : pre.length = leadLength cls)
    {e : Element} (h : e ∈ payloadElements cls pre) : e.kind ≠ .frameError := by
  cases cls with
  | noPayload => simp [payloadElements] at h
  | ramAddress =>
    obtain ⟨c0, c1, rfl⟩ := List.length_eq_two.1 hlength
    obtain rfl : e = _ := List.mem_singleton.1 h
    exact Kind.noConfusion
  | statusError =>
    obtain ⟨c, rfl⟩ := List.length_eq_one_iff.1 hlength
    obtain rfl : e = _ := List.mem_singleton.1 h
    exact Kind.noConfusion
  | unknown =>
    obtain rfl := List.length_eq_zero_iff.1 hlength
    simp [payloadElements, valueChunks] at h

/-- After COMMAND a length too short for the class ends in one FrameError: at once where the command byte alone reaches it,
else in VALUE. -/
theorem State.Awaits.reaches_short {s : State} {cls : PayloadClass} {d : BitVec 16} {xs rest : List Cycle} {x : Cycle}
    (h : s.Awaits (classEntry cls) d 1 (xs ++ x :: rest)) (hdeclared : d ≠ 0#16) (hlimit : d.toNat < shortLimit cls)
    (hlength : xs.length = bytesBeforeError cls d) (hbytes : ∀ c ∈ xs ++ [x], c.isByte = true) :
    ∃ es : List Element, s.Reaches (xs.length + 1) (es ++ [spanElement .frameError .empty x x]) .header 0#16 0 rest ∧
      ∀ e ∈ es, e.kind ≠ .frameError := by
  by_cases hone : d = 1#16
  · subst hone
    obtain rfl := List.length_eq_zero_iff.1 (hlength.trans (if_neg (by simp)))
    exact ⟨[], h.reaches_guard (hbytes x (by simp)) hdeclared le_rfl, by simp⟩
  · have hlt : 1 < d.toNat := by bv_omega
    obtain ⟨hlead, hvalues, hshort⟩ := bytesBeforeError_split hlt hlimit
    have hcls : cls ≠ .noPayload := by rintro rfl; exact Nat.not_lt_zero _ hlimit
    have hpre : (xs.take (leadLength cls)).length = leadLength cls := by
      rw [List.length_take, hlength, min_eq_left hlead]
    have herror : cls = .statusError → d.toNat ≠ countAfter d 1 1 + 2 := by
      rintro rfl
      rw [countAfter, if_neg hdeclared]
      exact Nat.ne_of_lt hlimit
    have hsplit : xs ++ x :: rest = xs.take (leadLength cls) ++ (xs.drop (leadLength cls) ++ x :: rest) := by
      rw [← List.append_assoc, List.take_append_drop]
    rw [hsplit] at h
    have hfields := h.reaches_value_of_class hcls hpre
      (fun c hc => hbytes c (List.mem_append_left _ (List.mem_of_mem_take hc))) (fun _ => .inr hlt) herror
    rw [hpre, countAfter, if_neg hdeclared] at hfields
    have hrest : ∀ c ∈ xs.drop (leadLength cls) ++ [x], c.isByte = true := fun c hc =>
      hbytes c ((List.mem_append.1 hc).elim (fun hc => List.mem_append_left _ (List.mem_of_mem_drop hc))
        (List.mem_append_right _))
    have hrun := hfields.trans fun t ht =>
      State.Awaits.reaches_value_overrun ht hdeclared hshort (by rw [List.length_drop, hlength, hvalues]) hrest
    rw [List.length_drop, ← Nat.add_assoc, Nat.add_sub_cancel' (hlength ▸ hlead), ← List.append_assoc] at hrun
    refine ⟨_, hrun, fun e he => ?_⟩
    rcases List.mem_append.1 he with he | he
    · exact kind_of_mem_payloadElements hpre he
    · rw [kind_of_mem_valueBytes he]
      exact Kind.noConfusion

/-- Settles O52: the command byte, which is counted as 1, and the run that a short length leaves to its class. -/
theorem shortLengthsEndInFrameError : Obligations.ShortLengthsEndInFrameError := by
  unfold Obligations.ShortLengthsEndInFrameError
  intro s c x xs rest hinv hr hs hdeclared hlimit hlength hbytes hn
  have hawaits := hinv.awaits_command hs hr
  rw [hn] at hawaits
  obtain ⟨hb, hbytes⟩ := List.forall_mem_cons.1 hbytes
  have hpos : s.declaredLength.toNat ≠ 0 := fun h => hdeclared (BitVec.eq_of_toNat_eq h)
  have hlimit' : s.declaredLength.toNat < shortLimit (payloadClass (decodeCommand c.byte)) := by
    cases hcls : payloadClass (decodeCommand c.byte) <;> rw [hcls] at hlimit <;> exact hlimit
  have hlength' : xs.length = bytesBeforeError (payloadClass (decodeCommand c.byte)) s.declaredLength := by
    rw [bytesBeforeError]
    split at hlength
    next h => rw [if_pos h]; omega
    next h => rw [if_neg h]; omega
  obtain ⟨t, ht, hcommand⟩ := hawaits.reaches_command hb
  rw [countAfter, if_neg hdeclared] at hcommand
  obtain ⟨es, ⟨u, hu, hend⟩, hes⟩ := State.Awaits.reaches_short hcommand hdeclared hlimit' hlength' hbytes
  refine ⟨_ :: es, u, Nat.add_assoc .. ▸ collect_trans ht hu, fun e he => ?_, hend.atPacketStart, hend.pending⟩
  rcases List.mem_cons.1 he with rfl | he
  · exact Kind.noConfusion
  · exact hes e he

end Sys2Proof.Machine
end

section
/-! The header in a run (spec/41_framing.md R94 to R97), and the distance between FrameErrors (spec/60_exceptions.md R148,
spec/70_reset_and_hazards.md R168, R169). -/

namespace Sys2Proof.Machine

/-- The first bytes of a header have matched, up to index `i`; the first one came in the cycle `first`. -/
structure State.Matching (s : State) (i : BitVec 3) (first : Cycle) (stream : List Cycle) : Prop where
  inv : s.Inv
  state : s.state = .header
  headerMatchIndex : s.headerMatchIndex = i
  declaredLength : s.declaredLength = 0#16
  packetStartTime : s.packetStartTime = first.tStart
  resetSeen : s.resetSeen = true
  pending : s.pending = stream

section
variable {s : State} {i : BitVec 3} {first c c0 c1 c2 c3 : Cycle} {rest : List Cycle}

/-! ### The bytes of a header -/

/-- The first byte of a header drops whatever stale bytes are held. -/
theorem headerMatch_of_first (hindex : s.headerMatchIndex = 0#3) (hcount : s.accCount = 0#3) :
    headerMatch s = { s with
      headerMatchIndex := 1#3
      accCount := 1#3
      accBytes := [s.inp.byte]
      packetStartTime := s.inp.tStart } := by
  have hheld : (s.setMatchIndex (s.headerMatchIndex + 1#3)).accumulateByte 4 =
      (false, firstOfTwo (s.setMatchIndex (s.headerMatchIndex + 1#3))) :=
    accumulateByte_first hcount (by decide)
  rw [headerMatch, hheld, hindex]
  rfl

theorem State.Awaits.reaches_matching (h : s.Awaits .header 0#16 0 (c :: rest)) (hb : c.isByte = true)
    (hbyte : c.byte = 0xFF#8) : ∃ t : State, collect 1 s = some ([], t) ∧ t.Matching 1#3 c rest := by
  have hmatch : headerByte? (s.receive c rest).headerMatchIndex = some (s.receive c rest).inp.byte := by
    rw [State.receive_headerMatchIndex, h.headerMatchIndex, State.receive_inp, hbyte]
    rfl
  have hstep := (step_takes (h.takesByte hb (passes_zero _))).trans
    ((stateRule_header (s := s.receive c rest) h.state).trans (headerStep_of_match hmatch))
  rw [headerMatch_of_first (s := s.receive c rest) h.headerMatchIndex h.accCount] at hstep
  refine ⟨_, collect_one hstep, ?_, h.state, rfl, h.declaredLength, rfl, h.resetSeen, rfl⟩
  have hheld : [c.byte] = headerPattern.take 1 := by rw [hbyte]; rfl
  exact inv_of_header h.state rfl (Nat.le_of_ble_eq_true rfl) (Nat.le_of_ble_eq_true rfl) (fun _ => hheld)
    (.inl ⟨h.declaredLength, BitVec.eq_of_toNat_eq h.consumedLength⟩)

theorem State.Matching.takesByte (h : s.Matching i first (c :: rest)) (hb : c.isByte = true) : s.TakesByte c rest :=
  ⟨h.pending, hb, h.resetSeen, .inl h.declaredLength⟩

theorem State.Matching.reaches_matching (h : s.Matching i first (c :: rest)) (hb : c.isByte = true) (hi : i ≠ 0#3)
    (hlt : i.toNat < 3) (hbyte : headerByte? i = some c.byte) :
    ∃ t : State, collect 1 s = some ([], t) ∧ t.Matching (i + 1#3) first rest := by
  have hindex := h.headerMatchIndex
  have hstep := (headerMatchingByte s c rest h.inv (h.takesByte hb) h.state (hindex ▸ hbyte)).1 (by rwa [hindex])
  refine ⟨_, collect_one hstep, stepKeepsInvariant s _ h.inv hstep, h.state, congrArg (· + 1#3) hindex, h.declaredLength,
    ?_, h.resetSeen, rfl⟩
  rw [if_neg (by rwa [hindex])]
  exact h.packetStartTime

theorem State.Matching.reaches_address (h : s.Matching 3#3 first (c :: rest)) (hb : c.isByte = true)
    (hbyte : c.byte = 0x00#8) : s.Reaches 1 [spanElement .header .empty first c] .address 0#16 0 rest := by
  have hmatch : headerPattern[s.headerMatchIndex.toNat]? = some c.byte := by rw [h.headerMatchIndex, hbyte]; rfl
  have hstep := (headerMatchingByte s c rest h.inv (h.takesByte hb) h.state hmatch).2 h.headerMatchIndex
  have hconsumed : s.consumedLength.toNat = 0 := by rw [h.inv.zero_length h.declaredLength]; rfl
  have hrun := collect_one hstep
  rw [h.packetStartTime] at hrun
  exact ⟨_, hrun, rfl, h.declaredLength, hconsumed, rfl, rfl, h.resetSeen, rfl⟩

theorem bytes_of_headerPattern (h : [c0.byte, c1.byte, c2.byte, c3.byte] = headerPattern) :
    c0.byte = 0xFF#8 ∧ c1.byte = 0xFF#8 ∧ c2.byte = 0xFD#8 ∧ c3.byte = 0x00#8 := by
  simpa [headerPattern] using h

theorem State.Awaits.reaches_header (h : s.Awaits .header 0#16 0 (c0 :: c1 :: c2 :: c3 :: rest))
    (hbytes : ∀ c ∈ [c0, c1, c2, c3], c.isByte = true)
    (hpattern : [c0.byte, c1.byte, c2.byte, c3.byte] = headerPattern) :
    s.Reaches 4 [spanElement .header .empty c0 c3] .address 0#16 0 rest := by
  obtain ⟨hbyte0, hbyte1, hbyte2, hbyte3⟩ := bytes_of_headerPattern hpattern
  obtain ⟨t, ht, hone⟩ := h.reaches_matching (hbytes c0 (by simp)) hbyte0
  obtain ⟨u, hu, htwo⟩ := hone.reaches_matching (hbytes c1 (by simp)) (by decide) (by decide) (by rw [hbyte1]; rfl)
  obtain ⟨v, hv, hthree⟩ := htwo.reaches_matching (hbytes c2 (by simp)) (by decide) (by decide) (by rw [hbyte2]; rfl)
  obtain ⟨w, hw, hend⟩ := hthree.reaches_address (hbytes c3 (by simp)) hbyte3
  exact ⟨w, collect_trans (collect_trans (collect_trans ht hu) hv) hw, hend⟩

/-! ### Scanning, and a broken match -/

theorem State.Awaits.reaches_scanning (h : s.Awaits .header 0#16 0 (c :: rest)) (hb : c.isByte = true)
    (hbyte : c.byte ≠ 0xFF#8) : s.Reaches 1 [] .header 0#16 0 rest :=
  ⟨_, collect_one (headerIdleScanning s c rest (h.takesByte hb (passes_zero _)) h.state h.headerMatchIndex hbyte),
    { h with pending := rfl }⟩

/-- A broken match reports nothing on its own byte and a FrameError on the next one (R96). -/
theorem reaches_of_brokenMatch (hinv : s.Inv) (htakes : s.TakesByte c (c0 :: rest)) (hs : s.state = .header)
    (hpartial : s.headerMatchIndex ≠ 0#3) (hbroken : headerPattern[s.headerMatchIndex.toNat]? ≠ some c.byte)
    (hb : c0.isByte = true) : s.Reaches 2 [spanElement .frameError .empty c0 c0] .header 0#16 0 rest := by
  obtain ⟨hstep, hnext⟩ := headerBrokenMatch s c (c0 :: rest) hinv htakes hs hpartial hbroken
  obtain ⟨herror, hstart⟩ := hnext c0 rest rfl hb
  exact ⟨_, collect_two hstep herror, hstart.awaits htakes.reset⟩

/-- `FF`, a byte that is not `FF`, and any byte: the shortest way to a FrameError (R148). -/
theorem State.Awaits.reaches_brokenMatch (h : s.Awaits .header 0#16 0 (c0 :: c1 :: c2 :: rest)) (hb0 : c0.isByte = true)
    (hb1 : c1.isByte = true) (hb2 : c2.isByte = true) (hbyte0 : c0.byte = 0xFF#8) (hbyte1 : c1.byte ≠ 0xFF#8) :
    s.Reaches 3 [spanElement .frameError .empty c2 c2] .header 0#16 0 rest := by
  obtain ⟨t, ht, hone⟩ := h.reaches_matching hb0 hbyte0
  have hbroken : headerPattern[t.headerMatchIndex.toNat]? ≠ some c1.byte := by
    rw [hone.headerMatchIndex]
    exact fun heq => hbyte1 (Option.some.inj heq).symm
  have hpartial : t.headerMatchIndex ≠ 0#3 := by rw [hone.headerMatchIndex]; decide
  obtain ⟨u, hu, hend⟩ := reaches_of_brokenMatch hone.inv (hone.takesByte hb1) hone.state hpartial hbroken hb2
  exact ⟨u, collect_trans ht hu, hend⟩

end

/-- Settles O50: after the guard the rest of the header is a match that its second byte breaks. -/
theorem guardCutsTheNextHeader : Obligations.GuardCutsTheNextHeader := by
  unfold Obligations.GuardCutsTheNextHeader
  intro s c0 c1 c2 c3 rest hover hb1 hb2 hb3 hpattern
  obtain ⟨_, hbyte1, hbyte2, _⟩ := bytes_of_headerPattern hpattern
  obtain ⟨t, ht, hend⟩ := hover.reaches.trans fun t ht =>
    ht.reaches_brokenMatch hb1 hb2 hb3 hbyte1 (by rw [hbyte2]; decide)
  exact ⟨t, ht, hend.atPacketStart, hend.pending⟩

/-- Settles O51: the header's bytes that come after the FrameError are scanned, where two are left, or break a match of
their own, where three are. -/
theorem brokenMatchLosesTheNextHeader : Obligations.BrokenMatchLosesTheNextHeader := by
  unfold Obligations.BrokenMatchLosesTheNextHeader
  refine ⟨?_, ?_⟩
  · intro s c0 c1 c2 c3 rest hinv htakes hs hpartial hbroken hbytes hpattern
    obtain ⟨_, _, hbyte2, hbyte3⟩ := bytes_of_headerPattern hpattern
    have herror := reaches_of_brokenMatch hinv htakes hs hpartial hbroken (hbytes c1 (by simp))
    obtain ⟨t, ht, hend⟩ := (herror.trans fun t ht =>
      ht.reaches_scanning (hbytes c2 (by simp)) (by rw [hbyte2]; decide)).trans fun t ht =>
      ht.reaches_scanning (hbytes c3 (by simp)) (by rw [hbyte3]; decide)
    exact ⟨t, ht, hend.atPacketStart, hend.pending⟩
  · intro s b c0 c1 c2 c3 rest hinv htakes hs hpartial hbroken hbytes hpattern
    obtain ⟨_, hbyte1, hbyte2, _⟩ := bytes_of_headerPattern hpattern
    have herror := reaches_of_brokenMatch hinv htakes hs hpartial hbroken (hbytes c0 (by simp))
    obtain ⟨t, ht, hend⟩ := herror.trans fun t ht =>
      ht.reaches_brokenMatch (hbytes c1 (by simp)) (hbytes c2 (by simp)) (hbytes c3 (by simp)) hbyte1
        (by rw [hbyte2]; decide)
    exact ⟨t, ht, hend.atPacketStart, hend.pending⟩

/-! ### No FrameError before the third byte -/

/-- No FrameError can come within the next `k` bytes: HEADER has the guard unarmed, and too few bytes matched for one of
them but the last to break the match. -/
structure State.Calm (s : State) (k : Nat) : Prop where
  inv : s.Inv
  resetSeen : s.resetSeen = true
  state : s.state = .header
  le_two : k ≤ 2
  unarmed : k = 0 ∨ s.declaredLength = 0#16 ∧ s.headerMatchIndex.toNat + k ≤ 2

theorem State.AtPacketStart.calm {s : State} (h : s.AtPacketStart) (hbytes : s.accBytes.length ≤ 4)
    (hr : s.resetSeen = true) {k : Nat} (hk : k ≤ 2) : s.Calm k where
  inv := h.inv hbytes
  resetSeen := hr
  state := h.state
  le_two := hk
  unarmed := .inr ⟨h.declaredLength, by rw [h.headerMatchIndex, BitVec.toNat_ofNat]; omega⟩

section
variable {s : State} {c : Cycle} {rest : List Cycle} {k : Nat}

/-- A byte advances the match, breaks it when it is the last of the `k`, or is scanned. -/
theorem byteStep_calm {t : State} (h : s.Calm (k + 1)) (hout : s.out = none) (hbyte : ByteStep s t) (ht : t.Inv)
    (hr : t.resetSeen = true) : t.out = none ∧ t.Calm k := by
  obtain ⟨hdeclared, hroom⟩ := h.unarmed.resolve_left (Nat.succ_ne_zero k)
  have hk : k ≤ 2 := (Nat.le_succ k).trans h.le_two
  have hs := h.state
  cases hbyte with
  | headerHeld _ _ hmatch hlt =>
    rw [headerMatch_of_lt h.inv hs hmatch hlt] at ht hr ⊢
    have hsucc : (s.headerMatchIndex + 1#3).toNat = s.headerMatchIndex.toNat + 1 := by bv_omega
    exact ⟨hout, ht, hr, hs, hk, .inr ⟨hdeclared, by simp only [hsucc]; omega⟩⟩
  | headerDone _ _ _ hlast =>
    rw [hlast, BitVec.toNat_ofNat] at hroom
    omega
  | headerBroken _ hpartial =>
    have hne : s.headerMatchIndex.toNat ≠ 0 := fun heq => hpartial (BitVec.eq_of_toNat_eq heq)
    exact ⟨hout, ht, hr, hs, hk, .inl (by omega)⟩
  | headerIdle => exact ⟨hout, ht, hr, hs, hk, .inr ⟨hdeclared, by omega⟩⟩
  | held _ htwo => simp [State.TakesTwo, hs] at htwo
  | _ => simp_all only [reduceCtorEq]

theorem State.Calm.step_byte (h : s.Calm (k + 1)) (hn : s.pending = c :: rest) (hb : c.isByte = true) :
    ∃ t : State, step s = .next t ∧ t.out = none ∧ t.Calm k := by
  obtain ⟨hdeclared, _⟩ := h.unarmed.resolve_left (Nat.succ_ne_zero k)
  have htakes := takesByte_of_declaredLength_eq_zero hn hb h.resetSeen hdeclared
  obtain ⟨t, hstep, hbyte⟩ := step_byteStep h.inv htakes
  have hcalm : (s.receive c rest).Calm (k + 1) := { h with inv := h.inv.receive c rest }
  exact ⟨t, hstep, byteStep_calm hcalm rfl hbyte (stepKeepsInvariant s t h.inv hstep) (step_resetSeen h.resetSeen hstep)⟩

/-- A reset or an idle cycle costs none of the `k` bytes. -/
theorem State.Calm.step_other (h : s.Calm k) (hn : s.pending = c :: rest) (hb : c.isByte = false) :
    ∃ t : State, step s = .next t ∧ t.out = none ∧ t.Calm k := by
  by_cases hrst : c.rst = true
  · exact ⟨_, step_reset hn hrst, rfl, (resetBlock_atPacketStart _).calm (Nat.zero_le 4) rfl h.le_two⟩
  · have hrst : c.rst = false := Bool.not_eq_true _ ▸ hrst
    have hv : c.valid = false := by simpa [Cycle.isByte, hrst] using hb
    exact ⟨_, step_idle hn hv hrst, rfl, { h with inv := h.inv.receive c rest }⟩

/-- Nothing is reported in a stream of no more bytes than that. -/
theorem State.Calm.collect_eq {cs : List Cycle} (h : s.Calm (cs.filter Cycle.isByte).length) (hn : s.pending = cs ++ rest) :
    ∃ t : State, collect cs.length s = some ([], t) ∧ t.pending = rest := by
  induction cs generalizing s with
  | nil => exact ⟨s, rfl, hn⟩
  | cons c cs ih =>
    have hnext : ∃ t : State, step s = .next t ∧ t.out = none ∧ t.Calm (cs.filter Cycle.isByte).length := by
      by_cases hb : c.isByte = true
      · rw [List.filter_cons_of_pos hb] at h
        exact h.step_byte hn hb
      · rw [List.filter_cons_of_neg hb] at h
        exact h.step_other hn (Bool.not_eq_true _ ▸ hb)
    obtain ⟨t, hstep, hout, hcalm⟩ := hnext
    obtain ⟨u, hu, hpending⟩ := ih hcalm (step_pending hn hstep)
    refine ⟨u, ?_, hpending⟩
    rw [List.length_cons, collect_next hstep, hu, hout]
    rfl

end

/-- Settles O49: the guard leaves two bytes without an error; the third one's is the broken match's. -/
theorem frameErrorsAreThreeBytesApart : Obligations.FrameErrorsAreThreeBytesApart := by
  unfold Obligations.FrameErrorsAreThreeBytesApart
  refine ⟨?_, ?_⟩
  · intro s c cs rest hover hfew
    have hcalm := (overrunGuard_atPacketStart (s.receive c (cs ++ rest))).calm (Nat.zero_le 4) hover.reset hfew
    obtain ⟨t, ht, hpending⟩ := hcalm.collect_eq rfl
    refine ⟨[], t, ?_, by simp, hpending⟩
    rw [collect_next (step_overruns hover), ht]
    rfl
  · intro s c d0 d1 d2 rest hover hb0 hb1 hb2 hbyte0 hbyte1
    obtain ⟨t, ht, hend⟩ := hover.reaches.trans fun t ht => ht.reaches_brokenMatch hb0 hb1 hb2 hbyte0 hbyte1
    exact ⟨t, ht, hend.atPacketStart⟩

end Sys2Proof.Machine
end

section
/-! Packets that close normally (spec/30_encoding.md R64, R65): the phases put together. -/

namespace Sys2Proof.Machine

section
variable {s : State} {d : BitVec 16} {cls : PayloadClass} {payload rest : List Cycle}

/-- A payload is its class's own field and the value bytes. -/
theorem payloadElements_append {pre : List Cycle} (h : pre.length = leadLength cls) (hcls : cls ≠ .noPayload)
    (vs : List Cycle) : payloadElements cls (pre ++ vs) = payloadElements cls pre ++ valueChunks vs := by
  cases cls with
  | noPayload => exact absurd rfl hcls
  | ramAddress =>
    obtain ⟨c0, c1, rfl⟩ := List.length_eq_two.1 h
    rfl
  | statusError =>
    obtain ⟨c, rfl⟩ := List.length_eq_one_iff.1 h
    rfl
  | unknown =>
    obtain rfl := List.length_eq_zero_iff.1 h
    rfl

/-- The fields before VALUE, then the value bytes, of which there is one at least. -/
theorem State.Awaits.reaches_payload_of_values {pre vs : List Cycle}
    (h : s.Awaits (classEntry cls) d 1 (pre ++ (vs ++ rest))) (hcls : cls ≠ .noPayload) (hpre : pre.length = leadLength cls) (hvs : vs ≠ [])
    (hlength : d.toNat = pre.length + vs.length + 3) (hbytes : ∀ c ∈ pre ++ vs, c.isByte = true) :
    s.Reaches (pre ++ vs).length (payloadElements cls (pre ++ vs)) .checksum d (1 + pre.length + vs.length) rest := by
  obtain ⟨hpreBytes, hvsBytes⟩ := List.forall_mem_append.1 hbytes
  have hpos : 0 < vs.length := List.length_pos_iff.2 hvs
  have hdeclared : d ≠ 0#16 := by rintro rfl; simp at hlength
  have herror : cls = .statusError → d.toNat ≠ countAfter d 1 1 + 2 := by
    rintro rfl
    rw [countAfter, if_neg hdeclared, hlength, hpre, leadLength]
    omega
  have hfields := h.reaches_value_of_class hcls hpre hpreBytes (fun _ => .inr (by omega)) herror
  rw [countAfter, if_neg hdeclared] at hfields
  rw [payloadElements_append hpre hcls, List.length_append]
  exact hfields.trans fun t ht => State.Awaits.reaches_valueChunks ht hvs hvsBytes (by omega)

/-- A Status packet without values goes from its error code to CHECKSUM (R128). -/
theorem State.Awaits.reaches_payload_of_errorCode {c : Cycle} (h : s.Awaits .errorCode d 1 (c :: rest))
    (hb : c.isByte = true) (hlength : d.toNat = 4) :
    s.Reaches 1 (payloadElements .statusError [c]) .checksum d 2 rest := by
  have hdeclared : d ≠ 0#16 := by rintro rfl; simp at hlength
  have herror := h.reaches_errorCode hb (.inr (by omega))
  rwa [countAfter, if_neg hdeclared, if_pos hlength] at herror

/-- A payload that fits its class leads to CHECKSUM, with the checksum's bytes still uncounted. -/
theorem State.Awaits.reaches_payload (h : s.Awaits (classEntry cls) d 1 (payload ++ rest)) (hcls : cls ≠ .noPayload)
    (hfits : payloadFits cls payload.length = true) (hlength : d.toNat = payload.length + 3)
    (hbytes : ∀ c ∈ payload, c.isByte = true) :
    s.Reaches payload.length (payloadElements cls payload) .checksum d (1 + payload.length) rest := by
  by_cases hvalues : leadLength cls < payload.length
  · have hpre : (payload.take (leadLength cls)).length = leadLength cls := by
      rw [List.length_take, min_eq_left hvalues.le]
    have hvs : payload.drop (leadLength cls) ≠ [] := by simpa using hvalues
    have hsplit := List.take_append_drop (leadLength cls) payload
    have hsum : (payload.take (leadLength cls)).length + (payload.drop (leadLength cls)).length = payload.length := by
      rw [← List.length_append, hsplit]
    rw [← hsplit, List.append_assoc] at h
    have hrun := h.reaches_payload_of_values hcls hpre hvs (by rw [hlength, hsum]) (by rwa [hsplit])
    rwa [hsplit, Nat.add_assoc, hsum] at hrun
  · cases cls with
    | noPayload => exact absurd rfl hcls
    | ramAddress =>
      simp only [leadLength, payloadFits, decide_eq_true_eq] at hvalues hfits
      omega
    | statusError =>
      simp only [leadLength, payloadFits, decide_eq_true_eq] at hvalues hfits
      obtain ⟨c, rfl⟩ := List.length_eq_one_iff.1 (Nat.le_antisymm (Nat.not_lt.1 hvalues) hfits)
      exact State.Awaits.reaches_payload_of_errorCode h (hbytes c (by simp)) hlength
    | unknown =>
      simp only [leadLength, payloadFits, decide_eq_true_eq] at hvalues hfits
      omega

/-- From COMMAND's class to the end of the packet. For class C the checksum follows at once, and with the command byte alone
counted the guard lets it pass unless a length of 1 is declared. -/
theorem State.Awaits.reaches_packetEnd {c0 c1 : Cycle}
    (h : s.Awaits (classEntry cls) d (countAfter d 0 1) (payload ++ c0 :: c1 :: rest))
    (hfits : payloadFits cls payload.length = true)
    (hlength : if cls = .noPayload then d ≠ 1#16 else d.toNat = payload.length + 3)
    (hbytes : ∀ c ∈ payload, c.isByte = true) (hb0 : c0.isByte = true) (hb1 : c1.isByte = true) :
    s.Reaches (payload.length + 2)
      (payloadElements cls payload ++ [spanElement .checksum (.bytes c1.byte c0.byte) c0 c1]) .header 0#16 0 rest := by
  by_cases hcls : cls = .noPayload
  · subst hcls
    rw [if_pos rfl] at hlength
    obtain rfl : payload = [] := List.length_eq_zero_iff.1 (by simpa [payloadFits] using hfits)
    have hpass : Passes d (countAfter d 0 1) := by
      by_cases hzero : d = 0#16
      · exact .inl hzero
      · rw [countAfter, if_neg hzero]
        exact .inr (by bv_omega)
    exact State.Awaits.reaches_checksum h hb0 hb1 hpass
  · rw [if_neg hcls] at hlength
    have hdeclared : d ≠ 0#16 := by rintro rfl; simp at hlength
    rw [countAfter, if_neg hdeclared] at h
    exact (h.reaches_payload hcls hfits hlength hbytes).trans fun t ht => ht.reaches_checksum hb0 hb1 (.inr (by omega))

end

/-- Settles O56: header, address, length and command, then what the command's class leaves of the packet. -/
theorem normalPacketsDecode : Obligations.NormalPacketsDecode := by
  unfold Obligations.NormalPacketsDecode
  rintro s ⟨h0, h1, h2, h3, addr, len0, len1, cmd, payload, crc0, crc1⟩ rest hstart hr ⟨hbytes, hheader, hlength, hfits⟩ hn
  have hawaits := hstart.awaits hr
  rw [hn] at hawaits
  simp only [Packet.cycles, List.cons_append, List.nil_append, List.append_assoc] at hbytes hawaits ⊢
  simp only [List.forall_mem_cons, List.forall_mem_append] at hbytes
  obtain ⟨hb0, hb1, hb2, hb3, hbAddr, hbLen0, hbLen1, hbCmd, hbPayload, hbCrc0, hbCrc1, _⟩ := hbytes
  have hrun := hawaits.reaches_header (by simp [hb0, hb1, hb2, hb3]) hheader
    |>.trans (fun t ht => ht.reaches_address hbAddr)
    |>.trans (fun t ht => ht.reaches_length hbLen0 hbLen1)
    |>.trans (fun t ht => ht.reaches_command hbCmd)
    |>.trans (fun t ht => State.Awaits.reaches_packetEnd ht hfits hlength hbPayload hbCrc0 hbCrc1)
  obtain ⟨t, ht, hend⟩ := hrun
  refine ⟨t, ?_, hend.atPacketStart, hend.resetSeen, hend.pending⟩
  have hsteps : (h0 :: h1 :: h2 :: h3 :: addr :: len0 :: len1 :: cmd :: (payload ++ [crc0, crc1])).length =
      4 + 1 + 2 + 1 + (payload.length + 2) := by
    simp only [List.length_cons, List.length_append, List.length_nil]
    omega
  rw [hsteps, ht, Packet.elements, List.append_assoc]
  rfl

end Sys2Proof.Machine
end
